-- ==== Sys2Proof/Word.lean ====
section
/-! DEFINITION. The words of the hardware: a byte of the output stream (30_encoding.md R50), a color index
(00_scope.md R4), a coordinate or dimension (00_scope.md R5), the command word (30_encoding.md R46) and the response
word (30_encoding.md R48). -/

namespace Sys2Proof

/-- One byte of the output stream. -/
abbrev Byte := BitVec 8

/-- A color index: 16 bits, unsigned (R4). -/
abbrev Color := BitVec 16

/-- A width, a height, a coordinate or a count of columns: 16 bits, unsigned (R5). -/
abbrev Dim := BitVec 16

/-- The word of the command port (R46). -/
abbrev CmdWord := BitVec 64

/-- The word of the response port (R48). -/
abbrev RspWord := BitVec 32

end Sys2Proof
end

