-- ==== Sys2Proof/Syntax.lean ====
section
/-! DEFINITION. The four commands of spec/opcode_table.json (30_encoding.md R47, R58). -/

namespace Sys2Proof

/-- A command of `TSX-CMD v1`. Operands are unsigned 16-bit numbers, used as they stand (R46). -/
inductive Instr where
  /-- `INIT width, height` (40_image_commands.md R65). -/
  | init (width height : Dim)
  /-- `SET x, y, color` (40_image_commands.md R66). -/
  | set (x y : Dim) (color : Color)
  /-- `GET x, y` (40_image_commands.md R67). -/
  | get (x y : Dim)
  /-- `ENCODE` (44_encode.md R100). -/
  | encode
  deriving DecidableEq, Repr

end Sys2Proof
end

