-- ==== Sys2Proof/WellFormed.lean ====
section
/-! DEFINITION. The five fields of a command word (30_encoding.md R46) and the checks that make them a legal command
(R49). A command of `Instr` has no ill-formed value: the checks are on the fields. -/

namespace Sys2Proof

/-- The five fields of the command word, `{OP, RSV, A, B, C}` (R46). -/
structure CmdFields where
  op : BitVec 4
  rsv : BitVec 12
  a : BitVec 16
  b : BitVec 16
  c : BitVec 16
  deriving DecidableEq, Repr

/-- Why a command word is illegal (R49). -/
inductive Illegal where
  /-- `OP` is `0x0` or `0x5` to `0xF`. -/
  | reservedOp
  /-- `RSV` is not zero. -/
  | reservedField
  /-- An operand field that must be zero for this `OP` is not zero. -/
  | operandNotZero
  deriving DecidableEq, Repr

/-- `OP` is one of the four operation codes (R47). -/
def CmdFields.opOk (f : CmdFields) : Bool := 1 ≤ f.op.toNat && f.op.toNat ≤ 4

/-- `RSV` is zero (R46). -/
def CmdFields.rsvOk (f : CmdFields) : Bool := f.rsv == 0

/-- The operand fields that must be zero are zero: `C` for `INIT` and `GET`; `A`, `B` and `C` for `ENCODE`; none for
`SET` (R46). -/
def CmdFields.operandsOk (f : CmdFields) : Bool :=
  match f.op.toNat with
  | 1 => f.c == 0
  | 3 => f.c == 0
  | 4 => f.a == 0 && f.b == 0 && f.c == 0
  | _ => true

/-- The first check the fields fail, or `none` when they are a legal command (R49). -/
def CmdFields.check (f : CmdFields) : Option Illegal :=
  if f.opOk = false then some .reservedOp
  else if f.rsvOk = false then some .reservedField
  else if f.operandsOk = false then some .operandNotZero
  else none

/-- The fields are those of a legal command. -/
def CmdFields.wellFormed (f : CmdFields) : Bool := f.check == none

/-- The fields of a command; absent operands are zero (R47, R58). -/
def CmdFields.ofInstr : Instr → CmdFields
  | .init w h => { op := 1, rsv := 0, a := w, b := h, c := 0 }
  | .set x y c => { op := 2, rsv := 0, a := x, b := y, c := c }
  | .get x y => { op := 3, rsv := 0, a := x, b := y, c := 0 }
  | .encode => { op := 4, rsv := 0, a := 0, b := 0, c := 0 }

/-- A command is well formed when the fields it stands for are a legal command. -/
def Instr.wellFormed (i : Instr) : Bool := (CmdFields.ofInstr i).wellFormed

end Sys2Proof
end

