-- ==== Sys2Proof/Decode.lean ====
section
/-! DEFINITION. Decoding and encoding of the 64-bit command word (30_encoding.md R46, R47, R49). -/

namespace Sys2Proof

/-- The fields of a word: `OP` 63:60, `RSV` 59:48, `A` 47:32, `B` 31:16, `C` 15:0 (R46). -/
def fieldsOf (w : CmdWord) : CmdFields :=
  { op := w.extractLsb' 60 4
    rsv := w.extractLsb' 48 12
    a := w.extractLsb' 32 16
    b := w.extractLsb' 16 16
    c := w.extractLsb' 0 16 }

/-- `word = {OP, RSV, A, B, C}` (R46). -/
def wordOf (f : CmdFields) : CmdWord := f.op ++ f.rsv ++ f.a ++ f.b ++ f.c

/-- The command of legal fields, by operation code (R47). -/
def instrOf (f : CmdFields) : Except Illegal Instr :=
  match f.op.toNat with
  | 1 => .ok (.init f.a f.b)
  | 2 => .ok (.set f.a f.b f.c)
  | 3 => .ok (.get f.a f.b)
  | 4 => .ok .encode
  | _ => .error .reservedOp

/-- Total on all words: one of the four commands, or the reason the word is illegal (R49). -/
def decode (w : CmdWord) : Except Illegal Instr :=
  match (fieldsOf w).check with
  | some e => .error e
  | none => instrOf (fieldsOf w)

/-- The word of a command (R47, R58). -/
def encode (i : Instr) : CmdWord := wordOf (CmdFields.ofInstr i)

/-- The command in the table's numbering of bits: one 64-bit word, bit 0 its least significant bit. The command word
is transferred whole, so there is no byte order to undo (20_memory.md R36). -/
def decodeTableWord (nbits w : Nat) : Option Instr :=
  (decode (BitVec.ofNat 64 (w % 2 ^ nbits))).toOption

end Sys2Proof
end

