-- ==== Sys2Proof/Config.lean ====
section
/-! DEFINITION. What an implementation fixes: the constants of 00_scope.md R8, the two open parameters of R6 and R7,
and the free values (opaque constants: nothing is known of any of them). -/

namespace Sys2Proof

namespace Config

/-- Rows per strip (R8). -/
abbrev stripH : Nat := 6

/-- The Sixel base character, added to every bitmask (R8). -/
abbrev base : Nat := 63

/-- The shortest run written as a counted token (R8). -/
abbrev rleMin : Nat := 3

/-! Free values. What the working registers hold after an ENCODE has ended (44_encode.md R100, 60_exceptions.md R128,
93_implementation_defined.md U10), and what the pixel memory holds after `rst` (10_state.md R19, U9). The argument is
the state's counter of draws. Log entries 5 and 6. -/

/-- What `strip` holds after an ENCODE. -/
opaque freeStrip : Nat → Dim
/-- What `cidx` holds after an ENCODE. -/
opaque freeCidx : Nat → BitVec 17
/-- What `cur` holds after an ENCODE. -/
opaque freeCur : Nat → Color
/-- What `x` holds after an ENCODE. -/
opaque freeX : Nat → Dim
/-- What `last_byte` holds after an ENCODE. -/
opaque freeLastByte : Nat → Byte
/-- What `run_count` holds after an ENCODE. -/
opaque freeRunCount : Nat → Dim
/-- What `clist` holds after an ENCODE. -/
opaque freeClist : Nat → List Color
/-- What the pixel memory holds after `rst`: addresses and values, in no particular order. -/
opaque freePix : Nat → List (Nat × Color)

end Config

/-- The open parameters of the block. They are arguments of the model (00_scope.md R6, R7), carried beside the
block's state because the host's `step` takes a state and nothing else (log entry 2). No step changes them. -/
structure Params where
  /-- `PIXCAP`, the number of cells of the pixel memory; `none` is infinity (R6). -/
  pixcap : Option Nat
  /-- `OQCAP` less 8, so that `OQCAP >= 8` holds of every value (R7). -/
  oqExtra : Nat
  deriving DecidableEq, Repr

/-- `OQCAP`, the capacity of the output queue in bytes (R7). -/
def Params.oqcap (p : Params) : Nat := p.oqExtra + 8

/-- An image of `n` cells fits the pixel memory (R6, 40_image_commands.md R65). -/
def Params.fits (p : Params) (n : Nat) : Bool :=
  match p.pixcap with
  | none => true
  | some cap => n ≤ cap

/-- The parameters the spec suggests: `PIXCAP` infinite, `OQCAP` 8 (92_eei_decisions.md, open parameters). -/
def Params.suggested : Params := { pixcap := none, oqExtra := 0 }

end Sys2Proof
end

