-- ==== Sys2Proof/Machine/State.lean ====
section
/-! DEFINITION. The machine's state: the block's own elements (10_state.md), the open parameters (00_scope.md R6, R7)
and the outside world as plain data (60_exceptions.md R134). -/

namespace Sys2Proof.Machine

/-- The control state of the sequencer (10_state.md R14). -/
inductive Phase where
  | idle
  | stripBegin
  | colorBegin
  | column
  | stripEnd
  | finish
  deriving DecidableEq, Repr

/-- The values of the `STATUS` field (60_exceptions.md R120). There is no other value. -/
inductive Status where
  | ok
  | errDim
  | errSink
  | errBounds
  | errNoImage
  | errCapacity
  | errIllegal
  deriving DecidableEq, Repr

/-- The sink's answer to an offered byte (44_encode.md R105). -/
inductive SinkAnswer where
  /-- The byte has been delivered. -/
  | accept
  /-- The byte has not been delivered: an output failure. -/
  | fail
  deriving DecidableEq, Repr

/-- The pixel memory: cells that do not hold 0, addresses strictly rising (20_memory.md R30, R31; log entries 3, 4). -/
abbrev Memory := List (Nat × Color)

/-- The outside world: the host and the sink (10_state.md R10, 60_exceptions.md R134), and the schedule that
44_encode.md R115 leaves open. Not state of the block (10_state.md R24, R25): inputs still to come and outputs already
delivered, held beside the block's state because the host's `step` takes a state and nothing else (log entry 1). An
empty list means that the outside does nothing more of that kind. -/
structure Env where
  /-- The level of `rst` at the coming steps; past the end it is low. -/
  rst : List Bool
  /-- What the host offers on `cmd` when the port is open: a word, or nothing at this step. -/
  cmds : List (Option CmdWord)
  /-- Whether the host takes the waiting response at a step. -/
  takes : List Bool
  /-- The sink's answers to the offers: an answer, or none yet at this step. -/
  answers : List (Option SinkAnswer)
  /-- When a sequencer step and the drain step are both enabled: true for the sequencer step; past the end, the drain
  step (R115). -/
  sched : List Bool
  /-- The responses the host has taken, oldest first. -/
  received : List RspWord
  /-- The bytes the sink has accepted, oldest first. -/
  stream : List Byte
  deriving DecidableEq, Repr

/-- The machine state of the block, and all of it (10_state.md R10 to R23). It holds neither the parameters nor an input
of a step: those are no state of the block (R24). -/
structure BlockState where
  /-- An image exists (10_state.md R11). -/
  valid : Bool
  /-- Columns of the image (R12). -/
  width : Dim
  /-- Rows of the image (R13). -/
  height : Dim
  /-- The control state of the sequencer (R14). -/
  phase : Phase
  /-- The strip being encoded (10_state.md section 3). -/
  strip : Dim
  /-- The position in `clist` of the color being encoded (section 3). -/
  cidx : BitVec 17
  /-- The color being encoded (section 3). -/
  cur : Color
  /-- The column about to be processed (section 3). -/
  x : Dim
  /-- The byte of the pending run, `last_byte` (R16). -/
  lastByte : Byte
  /-- The length of the pending run, `run_count` (R16). -/
  runCount : Dim
  /-- The colors of the current strip (R18). -/
  clist : List Color
  /-- The pixel memory (R19). -/
  pix : Memory
  /-- The output queue, head first (R22). -/
  oq : List Byte
  /-- The response port: a response waiting to be taken (R23, 30_encoding.md R45). -/
  rsp : Option RspWord
  /-- The output port: the byte on offer, not yet answered (R23, 44_encode.md R105). -/
  out : Option Byte
  deriving DecidableEq, Repr

/-- What the host's interface steps: the machine state of the block, and beside it what R24 keeps out of that state, the
parameters and the inputs still to come, with the outputs already delivered. The interface gives a step no other
arguments (log entries 1 and 2). -/
structure State extends BlockState where
  /-- The open parameters: arguments of the model (00_scope.md R6, R7). -/
  params : Params
  /-- The host and the sink. -/
  env : Env
  /-- The model's own counter of free draws (log entries 5 and 6). -/
  draws : Nat
  deriving DecidableEq, Repr

/-- What stops the machine. -/
inductive Fault where
  /-- Raised by `seqStripBegin` and `seqColumn` where the step would read a cell outside the image, or of no image
  (20_memory.md R32, R35). Safe: no state that a run reaches raises it (44_encode.md R116). -/
  | noPixel
  deriving DecidableEq, Repr

/-- What the model gives no meaning. -/
inductive Refusal where
  /-- Raised by `exec` for a command whose meaning is not written yet. Safe. No arm raises it now. -/
  | notModelled (mnemonic : String)
  deriving DecidableEq, Repr

/-- An outside world that does nothing, and to which nothing has been sent. -/
def Env.quiet : Env :=
  { rst := [], cmds := [], takes := [], answers := [], sched := [], received := [], stream := [] }

/-- The block right after reset, element by element (10_state.md R23, 70_reset_and_hazards.md R140). The spec leaves
`pix` unspecified: nothing is listed (log entry 4). -/
def BlockState.reset : BlockState :=
  { valid := false, width := 0, height := 0, phase := .idle
    strip := 0, cidx := 0, cur := 0, x := 0, lastByte := 0, runCount := 0
    clist := [], pix := [], oq := [], rsp := none, out := none }

/-- The block right after reset, for any parameters and before any outside world. -/
def State.resetOf (p : Params) (e : Env) : State :=
  { BlockState.reset with params := p, env := e, draws := 0 }

/-- The machine right after reset, as the host's interface asks for it: with the parameters the spec suggests, and before
an outside world that does nothing (log entries 1 and 2). -/
def State.reset : State := State.resetOf Params.suggested Env.quiet

end Sys2Proof.Machine
end

