-- ==== Sys2Proof/Machine/Flags.lean ====
section
/-! DEFINITION. The flags and the status codes. The block has one flag, `valid` (10_state.md R11), and the derived
`busy` (R15); there are no condition codes. The status codes and the response word: 30_encoding.md R48,
60_exceptions.md R120. -/

namespace Sys2Proof.Machine

/-- `busy = (phase != IDLE)` (10_state.md R15). -/
def State.busy (s : State) : Bool := s.phase != .idle

/-- The code of a status (60_exceptions.md R120). -/
def Status.code : Status → BitVec 4
  | .ok => 0
  | .errDim => 1
  | .errSink => 2
  | .errBounds => 3
  | .errNoImage => 4
  | .errCapacity => 5
  | .errIllegal => 6

/-- `rsp = {0[11:0], STATUS, DATA}` (30_encoding.md R48). -/
def rspWord (st : Status) (data : Color) : RspWord := (0 : BitVec 12) ++ st.code ++ data

end Sys2Proof.Machine
end

