-- ==== Sys2Proof/Machine/Memory.lean ====
section
/-! DEFINITION. The pixel memory as a list of cells in canonical form, and its operations `MemRead`, `MemWrite`
(00_scope.md R26, 20_memory.md R30 to R34) and the zero-fill of `INIT` (40_image_commands.md R65). -/

namespace Sys2Proof.Machine

/-- What an unlisted cell reads as: what the zero-fill of `INIT` leaves in it (40_image_commands.md R70). A cell that no
`INIT` has filled is never read (10_state.md R19; log entry 4). -/
def Memory.unlisted : Color := 0

/-- The canonical form: addresses strictly rising, no cell equal to what an unlisted cell reads as. -/
abbrev Memory.wf (m : Memory) : Prop :=
  m.Pairwise (fun c d => c.1 < d.1) ∧ ∀ c ∈ m, c.2 ≠ Memory.unlisted

/-- `MemRead(addr, 1)`: the cell at `a`. -/
def Memory.read : Memory → Nat → Color
  | [], _ => Memory.unlisted
  | (b, u) :: m, a => if a = b then u else Memory.read m a

/-- A cell put before the others, unless it holds what an unlisted cell reads as. -/
def Memory.consCell (a : Nat) (v : Color) (m : Memory) : Memory :=
  if v = Memory.unlisted then m else (a, v) :: m

/-- `MemWrite(addr, 1, v)`: the whole cell at `a` becomes `v` (20_memory.md R32). -/
def Memory.write : Memory → Nat → Color → Memory
  | [], a, v => Memory.consCell a v []
  | (b, u) :: m, a, v =>
    if a < b then Memory.consCell a v ((b, u) :: m)
    else if a = b then Memory.consCell a v m
    else (b, u) :: Memory.write m a v

/-- Every cell with address below `n` becomes 0; the others keep their values (R65). -/
def Memory.zeroFill (m : Memory) (n : Nat) : Memory := m.filter (fun c => n ≤ c.1)

/-- The memory that holds the given values, a later one over an earlier. -/
def Memory.ofCells (l : List (Nat × Color)) : Memory :=
  l.foldl (fun m c => Memory.write m c.1 c.2) []

end Sys2Proof.Machine
end

