-- ==== Sys2Proof/Machine/Operands.lean ====
section
/-! DEFINITION. Operand checks: coordinates against the image, an image against the pixel memory, and the place of a
strip in the image (20_memory.md R31, R33; 40_image_commands.md R65; 41_strip_discovery.md R75, R76). -/

namespace Sys2Proof.Machine

/-- `addr(x, y) = y * width + x`, over the natural numbers (20_memory.md R31). -/
def State.pixAddr (s : State) (x y : Nat) : Nat := y * s.width.toNat + x

/-- The coordinates are in range: `x < width` and `y < height`, checked separately (20_memory.md R33). -/
def State.inImage (s : State) (x y : Dim) : Bool := x.toNat < s.width.toNat && y.toNat < s.height.toNat

/-- `height mod 6 == 0`, the test of `INIT` (40_image_commands.md R65). -/
def heightOk (h : Dim) : Bool := h.toNat % Config.stripH == 0

/-- `width * height`, over the natural numbers (R65 (c)). -/
def cellCount (w h : Dim) : Nat := w.toNat * h.toNat

/-- `NS = height div 6`, the number of strips (41_strip_discovery.md R76). -/
def State.strips (s : State) : Nat := s.height.toNat / Config.stripH

/-- An image exists and the six rows of strip `strip` are in it, so that its cells may be read (20_memory.md R32,
41_strip_discovery.md R82). -/
def State.stripReadable (s : State) : Bool := s.valid && s.strip.toNat < s.strips

end Sys2Proof.Machine
end

