-- ==== Sys2Proof/Machine/Ops.lean ====
section
/-! DEFINITION. The named operations of 00_scope.md section 7 over the state: `Respond`, `raise`, `Push`, `PixRead`,
`PixWrite`, the sides of the three ports, and `rst`. -/

namespace Sys2Proof.Machine

/-- `PixRead(x, y)`: `MemRead(y * width + x, 1)` (20_memory.md R32). -/
def State.pixRead (s : State) (x y : Nat) : Color := Memory.read s.pix (s.pixAddr x y)

/-- `PixWrite(x, y, v)`: `MemWrite(y * width + x, 1, v)` (20_memory.md R32). -/
def State.pixWrite (s : State) (x y : Nat) (v : Color) : State :=
  { s with pix := Memory.write s.pix (s.pixAddr x y) v }

/-- `Respond(status, data)`: one response word on the response port, and back to `IDLE` (00_scope.md section 7). -/
def State.respond (s : State) (st : Status) (data : Color) : State :=
  { s with rsp := some (rspWord st data), phase := .idle }

/-- `raise <Status>`: the command ends with this status and data 0, and nothing else changes. Nothing is saved, no
mode changes and control goes nowhere; there is no return (60_exceptions.md R128, R129). -/
def State.raise (s : State) (st : Status) : State := s.respond st 0

/-- `Push(bs)`: `oq <- oq ++ bs` (00_scope.md section 7). -/
def State.push (s : State) (bs : List Byte) : State := { s with oq := s.oq ++ bs }

/-- The working registers and `clist` as an ENCODE leaves them when it ends: unspecified (44_encode.md R100,
60_exceptions.md R128), so free values (log entry 6). -/
def State.leaveWorking (s : State) : State :=
  { s with
    strip := Config.freeStrip s.draws
    cidx := Config.freeCidx s.draws
    cur := Config.freeCur s.draws
    x := Config.freeX s.draws
    lastByte := Config.freeLastByte s.draws
    runCount := Config.freeRunCount s.draws
    clist := Config.freeClist s.draws
    draws := s.draws + 1 }

/-! ### `rst` (70_reset_and_hazards.md R140 to R142) -/

/-- The level of `rst` at this step. -/
def State.rstHigh (s : State) : Bool := s.env.rst.headD false

/-- The step's level of `rst` has been read. -/
def State.passRst (s : State) : State := { s with env := { s.env with rst := s.env.rst.tail } }

/-- What the pixel memory holds after `rst`: unspecified, so a free value, in the cells that exist (10_state.md R19;
log entry 5). -/
def State.pixAfterRst (s : State) : Memory :=
  Memory.ofCells ((Config.freePix s.draws).filter (fun c => s.params.fits (c.1 + 1)))

/-- `rst`: every element to the reset table of 10_state.md R23. No response is issued, nothing more is offered, and
what the sink has accepted stays accepted (R142). -/
def State.takeReset (s : State) : State :=
  { State.resetOf s.params s.env with
    pix := s.pixAfterRst
    draws := s.draws + 1 }

/-! ### The response port (30_encoding.md R45) -/

/-- The host's readiness of this step has been used. -/
def State.passTake (s : State) : State := { s with env := { s.env with takes := s.env.takes.tail } }

/-- The waiting response goes to the host. -/
def State.handOver (s : State) : State :=
  { s with rsp := none, env := { s.env with received := s.env.received ++ s.rsp.toList } }

/-- The host's side of the response port at this step: it takes the waiting response, or does not yet. -/
def State.hostTakes (s : State) : State :=
  if s.env.takes.headD false then s.passTake.handOver else s.passTake

/-! ### The command port (30_encoding.md R45) -/

/-- The word the host offers on `cmd` at this step. -/
def State.offeredWord (s : State) : Option CmdWord := s.env.cmds.headD none

/-- The host's offer of this step has been used. -/
def State.passCmd (s : State) : State := { s with env := { s.env with cmds := s.env.cmds.tail } }

/-- An illegal word is accepted like any other, changes nothing, and is answered `ERR_ILLEGAL` (30_encoding.md R49). -/
def State.illegalWord (s : State) : State := s.raise .errIllegal

/-! ### The output port (44_encode.md R105, R106, R114) -/

/-- The sink answered `ACCEPT`: the head of `oq` is delivered (R114). -/
def State.accepted (s : State) (b : Byte) (rest : List Byte) : State :=
  { s with oq := rest, out := none, env := { s.env with stream := s.env.stream ++ [b] } }

/-- The sink answered `FAIL`: the failed byte and everything in `oq` are dropped, and the command ends with `ERR_SINK`
(R106). -/
def State.sinkFailed (s : State) : State :=
  State.raise { s.leaveWorking with oq := [], out := none } .errSink

/-- The sink's answer of this step has been used. -/
def State.passAnswer (s : State) : State := { s with env := { s.env with answers := s.env.answers.tail } }

/-- The byte `b` stays on offer. -/
def State.onOffer (s : State) (b : Byte) : State := { s with out := some b }

/-- `Offer(b)`, `b` the head of `oq`: while the sink has not answered, the byte stays on offer (R105, R114). -/
def State.drain (s : State) (b : Byte) (rest : List Byte) : State :=
  match s.env.answers.headD none with
  | none => s.passAnswer.onOffer b
  | some .accept => s.passAnswer.accepted b rest
  | some .fail => s.passAnswer.sinkFailed

end Sys2Proof.Machine
end

