-- ==== Sys2Proof/Machine/Strip.lean ====
section
/-! DEFINITION. The row-stripper: the scan of a strip and the discovery of its colors (41_strip_discovery.md). -/

namespace Sys2Proof.Machine

/-- The first row of strip `k`, `base_y` (R75). -/
def baseY (k : Nat) : Nat := Config.stripH * k

/-- `scan(k)`: the cells of strip `k`, rows outermost, columns innermost (R77). -/
def State.scan (s : State) (k : Nat) : List Color :=
  (List.range Config.stripH).flatMap fun r =>
    (List.range s.width.toNat).map fun x => s.pixRead x (baseY k + r)

/-- One step of discovery: a value not yet in the list is appended (R78). -/
def discoverStep (l : List Color) (v : Color) : List Color := if v ∈ l then l else l ++ [v]

/-- A sequence with every repeated value removed, the first occurrence of each kept (R78). -/
def discover (vs : List Color) : List Color := vs.foldl discoverStep []

/-- `colors(k)`: the colors of strip `k` in first-seen order (R78). -/
def State.colors (s : State) (k : Nat) : List Color := discover (s.scan k)

end Sys2Proof.Machine
end

