-- ==== Sys2Proof/Machine/Bitmask.lean ====
section
/-! DEFINITION. The bitmask generator: lanes, mask and color-run byte (42_bitmask.md). -/

namespace Sys2Proof.Machine

/-- `match(k, c, x, i)`: the pixel of column `x` in row `i` of strip `k` has color `c` (R83). -/
def State.laneMatch (s : State) (k : Nat) (c : Color) (x i : Nat) : Bool := s.pixRead x (baseY k + i) == c

/-- `mask(k, c, x)`: lane `i` at bit `i`, lane 0 the top row (R84). -/
def State.mask (s : State) (k : Nat) (c : Color) (x : Nat) : Nat :=
  ((List.range Config.stripH).map fun i => if s.laneMatch k c x i then 2 ^ i else 0).sum

/-- `crb(k, c, x) = 63 + mask(k, c, x)` (R85). -/
def State.crb (s : State) (k : Nat) (c : Color) (x : Nat) : Byte := BitVec.ofNat 8 (Config.base + s.mask k c x)

end Sys2Proof.Machine
end

