-- ==== Sys2Proof/Machine/Rle.lean ====
section
/-! DEFINITION. The byte codes (30_encoding.md R51), decimal numbers (R57) and the run-length compressor
(43_rle.md): the flush policy, one step of the state machine, and the closed form. -/

namespace Sys2Proof.Machine

/-- `'!'` (R51). -/
def chBang : Byte := 0x21
/-- `'#'` (R51). -/
def chHash : Byte := 0x23
/-- `'$'` (R51). -/
def chDollar : Byte := 0x24
/-- `'-'` (R51). -/
def chDash : Byte := 0x2D

/-- The digit `'0' + d` (R51). -/
def digit (d : Nat) : Byte := BitVec.ofNat 8 (0x30 + d)

/-- `dec` with a bound on the number of divisions still to do. -/
def decFuel : Nat → Nat → List Byte
  | 0, n => [digit (n % 10)]
  | k + 1, n => if n < 10 then [digit n] else decFuel k (n / 10) ++ [digit (n % 10)]

/-- `dec(n)`: the shortest decimal spelling, most significant digit first (R57). -/
def dec (n : Nat) : List Byte := decFuel n n

/-- `flush(b, n)`: what is written for a pending run of `n` copies of `b` (43_rle.md R94, R95). -/
def flush (b : Byte) (n : Nat) : List Byte :=
  if n < Config.rleMin then List.replicate n b else chBang :: (dec n ++ [b])

/-- What the compressor writes for the bytes still to come, starting with `n` copies of `last` pending: R92, R93, and
R96 at the end. -/
def rleFrom (last : Byte) (n : Nat) : List Byte → List Byte
  | [] => flush last n
  | b :: bs => if b = last then rleFrom last (n + 1) bs else flush last n ++ rleFrom b 1 bs

/-- The maximal runs of a byte string, each with its length (R97). -/
def runs : List Byte → List (Byte × Nat)
  | [] => []
  | b :: bs =>
    match runs bs with
    | [] => [(b, 1)]
    | (c, n) :: rs => if b = c then (c, n + 1) :: rs else (b, 1) :: (c, n) :: rs

/-- `rle(bs)`: the flushes of the maximal runs, in order (R97). -/
def rle (bs : List Byte) : List Byte := (runs bs).flatMap (fun r => flush r.1 r.2)

end Sys2Proof.Machine
end

