-- ==== Sys2Proof/Machine/Stream.lean ====
section
/-! DEFINITION. What an ENCODE writes when nothing fails, as a function of the image (44_encode.md R101 to R103). -/

namespace Sys2Proof.Machine

/-- The color-run bytes of color `c` in strip `k`, columns `from` to `width - 1` (R101). -/
def State.crbsFrom (s : State) (k : Nat) (c : Color) (start : Nat) : List Byte :=
  (List.range' start (s.width.toNat - start)).map (s.crb k c)

/-- `color_block(k, c)` (R101). -/
def State.colorBlock (s : State) (k : Nat) (c : Color) : List Byte :=
  chHash :: (dec c.toNat ++ rle (s.crbsFrom k c 0) ++ [chDollar])

/-- `strip_block(k)` (R102). -/
def State.stripBlock (s : State) (k : Nat) : List Byte :=
  (s.colors k).flatMap (s.colorBlock k) ++ [chDash]

/-- The strip blocks from strip `k` to the last. -/
def State.stripsFrom (s : State) (k : Nat) : List Byte :=
  (List.range' k (s.strips - k)).flatMap s.stripBlock

/-- `encode_image()` (R103). -/
def State.encodeImage (s : State) : List Byte := s.stripsFrom 0

end Sys2Proof.Machine
end

