-- ==== Sys2Proof/Machine/Encode.lean ====
section
/-! DEFINITION. The command `ENCODE` and the sequencer that carries it out: the start (44_encode.md R108), the
sequencer steps (R109 to R113), the drain step (R114) and their scheduling (R115). -/

namespace Sys2Proof.Machine

/-! ### Moves of the sequencer's position (10_state.md R17) -/

/-- To the first strip (R108). -/
def State.firstStrip (s : State) : State := { s with strip := 0, phase := .stripBegin }

/-- The phase alone moves. -/
def State.enter (s : State) (p : Phase) : State := { s with phase := p }

/-- To the first color of the strip, its colors discovered (R109). -/
def State.firstColor (s : State) : State :=
  { s with clist := s.colors s.strip.toNat, cidx := 0, phase := .colorBegin }

/-- To the first column of color `c`, the run-length state at `(0, 0)` (R110, 43_rle.md R91). -/
def State.firstColumn (s : State) (c : Color) : State :=
  { s with cur := c, lastByte := 0, runCount := 0, x := 0, phase := .column }

/-- The run-length state after the byte `b`: one more of `last_byte` when `b` equals it, else one of `b` (43_rle.md R92,
R93). -/
def State.feedRun (s : State) (b : Byte) : State :=
  { s with lastByte := b, runCount := if b = s.lastByte then s.runCount + 1 else 1 }

/-- To the next column (R111). -/
def State.nextColumn (s : State) : State := { s with x := s.x + 1 }

/-- To the next color (R111). -/
def State.nextColor (s : State) : State := { s with cidx := s.cidx + 1, phase := .colorBegin }

/-- To the next strip (R112). -/
def State.nextStrip (s : State) : State := { s with strip := s.strip + 1, phase := .stripBegin }

/-! ### The steps -/

/-- `ENCODE` (R100), as its first step: the start, R108. The steps that follow are `runBusy`. -/
def execEncode (s : State) : Host.Outcome State Fault Refusal :=
  if s.valid = false then .next (s.raise .errNoImage)
  else .next s.firstStrip

/-- The color-run byte of the column about to be processed (R111). -/
def State.curByte (s : State) : Byte := s.crb s.strip.toNat s.cur s.x.toNat

/-- What the pending run is flushed to (43_rle.md R94). -/
def State.flushPending (s : State) : List Byte := flush s.lastByte s.runCount.toNat

/-- The bytes that the sequencer step of the current phase pushes (R109 to R113). -/
def State.seqBytes (s : State) : List Byte :=
  match s.phase with
  | .colorBegin =>
    match s.clist[s.cidx.toNat]? with
    | none => []
    | some c => chHash :: dec c.toNat
  | .column =>
    if s.x.toNat < s.width.toNat then
      if s.curByte = s.lastByte then [] else s.flushPending
    else s.flushPending ++ [chDollar]
  | .stripEnd => [chDash]
  | _ => []

/-- `STRIP_BEGIN` (R109). -/
def seqStripBegin (s : State) : Host.Outcome State Fault Refusal :=
  if s.strip.toNat = s.strips then .next (s.enter .finish)
  else if s.stripReadable = false then .fault .noPixel
  else .next s.firstColor

/-- `COLOR_BEGIN` (R110). -/
def seqColorBegin (s : State) : Host.Outcome State Fault Refusal :=
  match s.clist[s.cidx.toNat]? with
  | none => .next (s.enter .stripEnd)
  | some c => .next ((s.push s.seqBytes).firstColumn c)

/-- `COLUMN` (R111): one column, or the end of the color block after the last one. -/
def seqColumn (s : State) : Host.Outcome State Fault Refusal :=
  if s.x.toNat < s.width.toNat then
    if s.stripReadable = false then .fault .noPixel
    else .next ((s.push s.seqBytes).feedRun s.curByte).nextColumn
  else .next (s.push s.seqBytes).nextColor

/-- `STRIP_END` (R112). -/
def seqStripEnd (s : State) : Host.Outcome State Fault Refusal := .next (s.push s.seqBytes).nextStrip

/-- `FINISH` (R113); it runs only when `oq` is empty. -/
def seqFinish (s : State) : Host.Outcome State Fault Refusal := .next (s.leaveWorking.respond .ok 0)

/-- The sequencer step of the current phase. In `IDLE` there is none. -/
def seqStep (s : State) : Host.Outcome State Fault Refusal :=
  match s.phase with
  | .idle => .next s
  | .stripBegin => seqStripBegin s
  | .colorBegin => seqColorBegin s
  | .column => seqColumn s
  | .stripEnd => seqStripEnd s
  | .finish => seqFinish s

/-- A sequencer step is enabled while `oq` is not empty: it is one of R109 to R112, and `oq` has room for what it
pushes (R113, R115). With `oq` empty every sequencer step is enabled, since none pushes more than 8 bytes. -/
def State.seqEnabled (s : State) : Bool :=
  s.phase != .finish && s.oq.length + s.seqBytes.length ≤ s.params.oqcap

/-- The choice between a sequencer step and the drain step, when both are enabled (R115). -/
def State.seqFirst (s : State) : Bool := s.env.sched.headD false

/-- The choice has been used. -/
def State.passSched (s : State) : State := { s with env := { s.env with sched := s.env.sched.tail } }

/-- One step of a running ENCODE (R114, R115). A byte on offer is waited for, and nothing else happens meanwhile
(R105, 00_scope.md R26). -/
def runBusy (s : State) : Host.Outcome State Fault Refusal :=
  match s.oq with
  | [] => seqStep s
  | b :: rest =>
    if s.out.isSome then .next (s.drain b rest)
    else if s.seqEnabled = false then .next (s.drain b rest)
    else if s.seqFirst then seqStep s.passSched
    else .next (s.passSched.drain b rest)

end Sys2Proof.Machine
end

