-- ==== Sys2Proof/Machine/Image.lean ====
section
/-! DEFINITION. The image commands `INIT`, `SET` and `GET` (40_image_commands.md). Each is one step and always answers:
its errors are responses, in the order of 60_exceptions.md R127. -/

namespace Sys2Proof.Machine

/-- The image becomes one of `w` columns and `h` rows, every cell 0 (R65). -/
def State.newImage (s : State) (w h : Dim) : State :=
  { s with width := w, height := h, valid := true, pix := Memory.zeroFill s.pix (cellCount w h) }

/-- `INIT width, height` (R65). -/
def execInit (w h : Dim) (s : State) : Host.Outcome State Fault Refusal :=
  if heightOk h = false then .next (s.raise .errDim)
  else if s.params.fits (cellCount w h) = false then .next (s.raise .errCapacity)
  else .next ((s.newImage w h).respond .ok 0)

/-- `SET x, y, color` (R66). -/
def execSet (x y : Dim) (c : Color) (s : State) : Host.Outcome State Fault Refusal :=
  if s.valid = false then .next (s.raise .errNoImage)
  else if s.inImage x y = false then .next (s.raise .errBounds)
  else .next ((s.pixWrite x.toNat y.toNat c).respond .ok 0)

/-- `GET x, y` (R67). -/
def execGet (x y : Dim) (s : State) : Host.Outcome State Fault Refusal :=
  if s.valid = false then .next (s.raise .errNoImage)
  else if s.inImage x y = false then .next (s.raise .errBounds)
  else .next (s.respond .ok (s.pixRead x.toNat y.toNat))

end Sys2Proof.Machine
end

