-- ==== Sys2Proof/Machine/Dispatch.lean ====
section
/-! DEFINITION. One arm per command. -/

namespace Sys2Proof.Machine

def exec (i : Instr) (s : State) : Host.Outcome State Fault Refusal :=
  match i with
  | .init w h => Sys2Proof.Machine.execInit w h s
  | .set x y c => Sys2Proof.Machine.execSet x y c s
  | .get x y => Sys2Proof.Machine.execGet x y s
  | .encode => Sys2Proof.Machine.execEncode s

end Sys2Proof.Machine
end

