-- ==== Sys2Proof/Machine/Ports.lean ====
section
/-! DEFINITION. The command port and the order of a step's business: a running ENCODE first (the port is closed while
busy, 70_reset_and_hazards.md R146), then a waiting response, then the command port (30_encoding.md R45). -/

namespace Sys2Proof.Machine

/-- The command port is open: the offered word is taken, decoded and carried out; with no word offered the block waits
(30_encoding.md R45, R49; 60_exceptions.md R133). -/
def commandPort (s : State) : Host.Outcome State Fault Refusal :=
  match s.offeredWord with
  | none => .next s.passCmd
  | some w =>
    match decode w with
    | .error _ => .next s.passCmd.illegalWord
    | .ok i => exec i s.passCmd

/-- A step with `rst` low. -/
def cycle (s : State) : Host.Outcome State Fault Refusal :=
  if s.busy then runBusy s
  else
    match s.rsp with
    | some _ => .next s.hostTakes
    | none => commandPort s

/-- A step, `rst` before everything else (70_reset_and_hazards.md R140, R142). -/
def cycleOrReset (s : State) : Host.Outcome State Fault Refusal :=
  if s.rstHigh then .next s.passRst.takeReset else cycle s.passRst

/-- The command port with the word `w` as its next offer, open and with `rst` low. -/
def State.offerWord (s : State) (w : CmdWord) : State :=
  { s with phase := .idle, rsp := none, env := { s.env with rst := [], cmds := some w :: s.env.cmds } }

end Sys2Proof.Machine
end

