-- ==== Sys2Proof/Machine/Step.lean ====
section
/-! DEFINITION. One step of the machine, and the placing of a command word before it. -/

namespace Sys2Proof.Machine

/-- One step of the machine. -/
def step (s : State) : Host.Outcome State Fault Refusal := cycleOrReset s

/-- `s` with the command word `w` offered at an open command port, so that the next step carries it out (log entry 8). -/
def State.withFetchWord (s : State) (nbits w : Nat) : State := s.offerWord (BitVec.ofNat 64 (w % 2 ^ nbits))

end Sys2Proof.Machine
end

