-- ==== Sys2Proof/Safety.lean ====
section
/-! DEFINITION. What claims are stated in: the invariant of the machine, the bytes a running ENCODE has still to push,
the size of an ENCODE, and a sequence of commands. -/

namespace Sys2Proof.Machine

/-- Two states hold the same image. -/
def State.sameImage (s t : State) : Prop :=
  t.valid = s.valid ∧ t.width = s.width ∧ t.height = s.height ∧ t.pix = s.pix

/-- Every response issued and not lost to `rst`: those the host has taken, then the one that waits. -/
def State.responses (s : State) : List RspWord := s.env.received ++ s.rsp.toList

/-! ### The inputs of a step (10_state.md R24) -/

/-- The inputs of one step: no state of the block (10_state.md R24). -/
structure Inputs where
  /-- The level of `rst`. -/
  rst : Bool
  /-- The word the host offers on `cmd`, if any. -/
  cmd : Option CmdWord
  /-- Whether the host takes a waiting response. -/
  take : Bool
  /-- The sink's answer to an offer, if it has one (44_encode.md R105). -/
  answer : Option SinkAnswer
  /-- The choice between a sequencer step and the drain step (R115). -/
  seqFirst : Bool
  deriving DecidableEq, Repr

/-- What the outside world gives the next step. -/
def State.inputs (s : State) : Inputs :=
  { rst := s.rstHigh, cmd := s.offeredWord, take := s.env.takes.headD false
    answer := s.env.answers.headD none, seqFirst := s.seqFirst }

/-- From `e` to `f` some of the inputs at the head of each list have been used, at most one of each kind, and something
may have been delivered; nothing else of the outside world is different. -/
def Env.consumedTo (e f : Env) : Prop :=
  f.rst = e.rst.tail ∧ (f.cmds = e.cmds ∨ f.cmds = e.cmds.tail) ∧ (f.takes = e.takes ∨ f.takes = e.takes.tail) ∧
    (f.answers = e.answers ∨ f.answers = e.answers.tail) ∧ (f.sched = e.sched ∨ f.sched = e.sched.tail) ∧
    e.received <+: f.received ∧ e.stream <+: f.stream

/-! ### The invariant -/

/-- The image: a height that is a multiple of 6 (10_state.md R13), and a size that fits the pixel memory
(20_memory.md R31). -/
def State.imageOk (s : State) : Prop :=
  s.valid = true → s.height.toNat % 6 = 0 ∧ s.params.fits (cellCount s.width s.height) = true

/-- The pixel memory is in canonical form and lists only cells that exist (10_state.md R19). -/
def State.memoryOk (s : State) : Prop :=
  Memory.wf s.pix ∧ ∀ c ∈ s.pix, s.params.fits (c.1 + 1) = true

/-- The ports and the queue: `oq` never exceeds its capacity and is empty in `IDLE` (10_state.md R22), the byte on offer
is its head (44_encode.md R105), and a running ENCODE has an image and no response waiting (R108). -/
def State.portsOk (s : State) : Prop :=
  s.oq.length ≤ s.params.oqcap ∧ (∀ b, s.out = some b → s.oq.head? = some b) ∧
    (s.busy = false → s.oq = []) ∧ (s.busy = true → s.valid = true ∧ s.rsp = none)

/-- The pending run: `(0, 0)` before the first column, after it a color-run byte seen at least once and at most once a
column (10_state.md R16, 43_rle.md R98). -/
def State.runOk (s : State) : Prop :=
  if s.x.toNat = 0 then s.lastByte = 0 ∧ s.runCount = 0
  else 63 ≤ s.lastByte.toNat ∧ s.lastByte.toNat ≤ 126 ∧ 1 ≤ s.runCount.toNat ∧ s.runCount.toNat ≤ s.x.toNat

/-- The sequencer's position is within its bounds (10_state.md R17), and `clist` and `cur` are those of the position
(20_memory.md R44). -/
def State.positionOk (s : State) : Prop :=
  match s.phase with
  | .idle => True
  | .stripBegin => s.strip.toNat ≤ s.strips
  | .colorBegin =>
    s.strip.toNat < s.strips ∧ s.clist = s.colors s.strip.toNat ∧ s.cidx.toNat ≤ s.clist.length
  | .column =>
    s.strip.toNat < s.strips ∧ s.clist = s.colors s.strip.toNat ∧
      s.clist[s.cidx.toNat]? = some s.cur ∧ s.x.toNat ≤ s.width.toNat ∧ s.runOk
  | .stripEnd => s.strip.toNat < s.strips
  | .finish => s.strip.toNat = s.strips

/-- The invariant of the machine. -/
def State.Inv (s : State) : Prop := s.imageOk ∧ s.memoryOk ∧ s.portsOk ∧ s.positionOk

/-! ### A running ENCODE -/

/-- The color blocks of the colors in `clist` from position `i`. -/
def State.blocksFrom (s : State) (i : Nat) : List Byte :=
  (s.clist.drop i).flatMap (s.colorBlock s.strip.toNat)

/-- What follows the color blocks of the current strip. -/
def State.afterColors (s : State) : List Byte := chDash :: s.stripsFrom (s.strip.toNat + 1)

/-- The bytes that a running ENCODE has still to push, from its position on (44_encode.md R116). -/
def State.toCome (s : State) : List Byte :=
  match s.phase with
  | .idle => []
  | .stripBegin => s.stripsFrom s.strip.toNat
  | .colorBegin => s.blocksFrom s.cidx.toNat ++ s.afterColors
  | .column =>
    rleFrom s.lastByte s.runCount.toNat (s.crbsFrom s.strip.toNat s.cur s.x.toNat) ++
      chDollar :: (s.blocksFrom (s.cidx.toNat + 1) ++ s.afterColors)
  | .stripEnd => s.afterColors
  | .finish => []

/-- The bytes delivered, then those in `oq`, then those still to be pushed. -/
def State.account (s : State) : List Byte := s.env.stream ++ s.oq ++ s.toCome

/-- The number of sequencer steps of an ENCODE, its start and its `FINISH` included (44_encode.md R118). -/
def State.seqSteps (s : State) : Nat :=
  3 + ((List.range s.strips).map fun k => (s.colors k).length * (s.width.toNat + 2) + 3).sum

/-- The bound on the size of an ENCODE's output (44_encode.md R118). -/
def State.sizeBound (s : State) : Nat :=
  ((List.range s.strips).map fun k => (s.colors k).length * (s.width.toNat + 7) + 1).sum

/-- An ENCODE is about to be accepted: an image exists, the block is idle with no response waiting, `rst` stays low, and
`0x4000000000000000` is the word on the command port (44_encode.md R108). -/
def State.encodeOffered (s : State) : Prop :=
  s.Inv ∧ s.phase = .idle ∧ s.rsp = none ∧ s.valid = true ∧ s.env.rst = [] ∧
    s.env.cmds.head? = some (some 0x4000000000000000)

/-- From `s` the sink answers `ACCEPT` to each of the next `n` offers, at once. -/
def State.sinkAccepts (s : State) (n : Nat) : Prop := ∀ j < n, s.env.answers[j]? = some (some .accept)

/-- `rs` is a cut of `bs` into maximal runs: its runs, each a byte and a length of at least 1, make up `bs`, and two
neighbouring runs are of different bytes (43_rle.md R97). -/
def cutsInto (bs : List Byte) (rs : List (Byte × Nat)) : Prop :=
  rs.flatMap (fun r => List.replicate r.2 r.1) = bs ∧ (∀ r ∈ rs, 1 ≤ r.2) ∧ ∀ q r, [q, r] <:+: rs → q.1 ≠ r.1

/-! ### The grammar of the stream (30_encoding.md R52) -/

/-- A token of a color block. -/
inductive Token where
  /-- A color-run byte written as itself. -/
  | literal (b : Byte)
  /-- `'!' number data`. -/
  | counted (n : Nat) (b : Byte)
  deriving DecidableEq, Repr

/-- The data byte of a token. -/
def Token.data : Token → Byte
  | .literal b => b
  | .counted _ b => b

/-- The bytes of a token (R52). -/
def Token.bytes : Token → List Byte
  | .literal b => [b]
  | .counted n b => chBang :: (dec n ++ [b])

/-- The color-run bytes a token stands for (R54). -/
def Token.expand : Token → List Byte
  | .literal b => [b]
  | .counted n b => List.replicate n b

/-- A color block as its color and its tokens (R52). -/
abbrev Block := Color × List Token

/-- The bytes of a color block: `'#' number { token } '$'` (R52). -/
def blockBytes (b : Block) : List Byte := chHash :: (dec b.1.toNat ++ b.2.flatMap Token.bytes ++ [chDollar])

/-- The bytes of a stream: each strip block is its color blocks and then `'-'` (R52). -/
def streamBytes (doc : List (List Block)) : List Byte :=
  doc.flatMap fun strip => strip.flatMap blockBytes ++ [chDash]

/-- The blocks have tokens, and their data bytes are color-run bytes (R52). -/
def dataOk (doc : List (List Block)) : Prop :=
  ∀ strip ∈ doc, ∀ b ∈ strip, b.2 ≠ [] ∧ ∀ t ∈ b.2, 63 ≤ t.data.toNat ∧ t.data.toNat ≤ 126

/-- Neighbouring tokens: a counted token has no neighbour with its data byte, and no three literals in a row are of
one data byte (R55 (b), (c)). -/
def neighboursOk (ts : List Token) : Prop :=
  (∀ t u, [t, u] <:+: ts → t.data = u.data → (∃ b, t = .literal b) ∧ ∃ b, u = .literal b) ∧
    ∀ b, ¬ [Token.literal b, .literal b, .literal b] <:+: ts

/-! ### Commands in a row -/

/-- The commands of a list carried out one after another, each in the state the one before it leaves. -/
def execAll : List Instr → State → Host.Outcome State Fault Refusal
  | [], s => .next s
  | i :: is, s =>
    match exec i s with
    | .next t => execAll is t
    | .fault f => .fault f
    | .refused r => .refused r

/-- The command neither constructs an image nor writes the pixel `(x, y)`. -/
def leavesPixel (x y : Dim) (i : Instr) : Bool :=
  match i with
  | .init _ _ => false
  | .set x' y' _ => !(x' == x && y' == y)
  | .get _ _ => true
  | .encode => true

/-! ### Steps that leave a pixel -/

/-- `rst` is low, and the command port is open with a word on it that decodes to `i` (30_encoding.md R45). -/
def State.takesCommand (s : State) (i : Instr) : Prop :=
  s.rstHigh = false ∧ s.phase = .idle ∧ s.rsp = none ∧ ∃ w, s.env.cmds.head? = some (some w) ∧ decode w = .ok i

/-- The next step is no reset, and takes no word that constructs an image or writes the pixel `(x, y)`. -/
def State.keepsPixel (s : State) (x y : Dim) : Prop :=
  s.rstHigh = false ∧ ∀ i, s.takesCommand i → leavesPixel x y i = true

/-- `k` steps lead from `s` to `t`, and none of them resets the block, constructs an image or writes the pixel `(x, y)`;
they may be steps of an ENCODE. -/
def State.runsKeeping (s : State) (x y : Dim) (k : Nat) (t : State) : Prop :=
  Host.Core.run Sys2Proof.core k s = .next t ∧
    ∀ j < k, ∀ u, Host.Core.run Sys2Proof.core j s = .next u → u.keepsPixel x y

end Sys2Proof.Machine
end

