-- ==== Sys2Proof/Certificates/Slice0/Obligations.lean ====
section
/-! DEFINITION. The statements about the machine, from the numbered rules of the spec. -/

open Sys2Proof Sys2Proof.Machine

/-! ### Encodings (30_encoding.md) -/

/-- R46, R47: decoding the word of a command gives the command back, whatever its operands. -/
def Obligations.DecodeOfEncode : Prop := ∀ i : Instr, decode (encode i) = .ok i

/-- R46, R49: a word that decodes to a command is the one word of that command. -/
def Obligations.EncodeOfDecode : Prop := ∀ (w : CmdWord) (i : Instr), decode w = .ok i → encode i = w

/-- R47: the four rows of the match and mask table, with the operand fields as they stand. -/
def Obligations.DecodeByMaskAndMatch : Prop := ∀ w : CmdWord,
  (∀ a b, decode w = .ok (.init a b) ↔
    w &&& 0xFFFF00000000FFFF = 0x1000000000000000 ∧ a = w.extractLsb' 32 16 ∧ b = w.extractLsb' 16 16) ∧
  (∀ a b c, decode w = .ok (.set a b c) ↔
    w &&& 0xFFFF000000000000 = 0x2000000000000000 ∧
      a = w.extractLsb' 32 16 ∧ b = w.extractLsb' 16 16 ∧ c = w.extractLsb' 0 16) ∧
  (∀ a b, decode w = .ok (.get a b) ↔
    w &&& 0xFFFF00000000FFFF = 0x3000000000000000 ∧ a = w.extractLsb' 32 16 ∧ b = w.extractLsb' 16 16) ∧
  (decode w = .ok .encode ↔ w &&& 0xFFFFFFFFFFFFFFFF = 0x4000000000000000)

/-- R49: which words are illegal, and what becomes of one: it is taken, no state of the block changes, and the answer
is `ERR_ILLEGAL` with data 0. -/
def Obligations.IllegalWordAnswered : Prop :=
  (∀ w : CmdWord, (∃ e, decode w = .error e) ↔
    (w.toNat / 2 ^ 60 = 0 ∨ 5 ≤ w.toNat / 2 ^ 60) ∨ w.toNat / 2 ^ 48 % 2 ^ 12 ≠ 0 ∨
    ((w.toNat / 2 ^ 60 = 1 ∨ w.toNat / 2 ^ 60 = 3) ∧ w.toNat % 2 ^ 16 ≠ 0) ∨
    (w.toNat / 2 ^ 60 = 4 ∧ w.toNat % 2 ^ 48 ≠ 0)) ∧
  ∀ (s : State) (w : CmdWord), s.rstHigh = false → s.phase = .idle → s.rsp = none →
    s.env.cmds.head? = some (some w) → (∃ e, decode w = .error e) →
    step s = .next { s with
      rsp := some 0x00060000, env := { s.env with rst := s.env.rst.tail, cmds := s.env.cmds.tail } }

/-- R47: the example words of the table, and an illegal one. A sanity statement. -/
def Obligations.ExampleWordsDecode : Prop :=
  decode 0x1000000100060000 = .ok (.init 1 6) ∧ decode 0x2000000000030005 = .ok (.set 0 3 5) ∧
  decode 0x30000002000B0000 = .ok (.get 2 11) ∧ decode 0x4000000000000000 = .ok .encode ∧
  decode 0 = .error .reservedOp

/-- R48, R120: the layout of the response word and the seven status codes. -/
def Obligations.ResponseWordLayout : Prop :=
  (∀ st d, (rspWord st d).toNat = st.code.toNat * 2 ^ 16 + d.toNat) ∧
  [Status.ok, .errDim, .errSink, .errBounds, .errNoImage, .errCapacity, .errIllegal].map
    (fun st => st.code.toNat) = [0, 1, 2, 3, 4, 5, 6]

/-- R26, R45: with `rst` low, the block idle, no response waiting and a word on the command port that decodes to `i`,
a step is `exec i` once the level of `rst` and the word have been taken (that order is DEDUCED, log entry 11); and a
word placed by `withFetchWord` is run by the next step. That second clause is the model's choice, of no rule of the
spec (DESIGN CHOICE, log entry 8). -/
def Obligations.StepRunsDecodedWord : Prop :=
  (∀ (s : State) (w : CmdWord) (i : Instr), s.rstHigh = false → s.phase = .idle → s.rsp = none →
    s.env.cmds.head? = some (some w) → decode w = .ok i →
    step s = exec i { s with env := { s.env with rst := s.env.rst.tail, cmds := s.env.cmds.tail } }) ∧
  ∀ (s : State) (w : CmdWord) (i : Instr), decode w = .ok i →
    step (s.withFetchWord 64 w.toNat) =
      exec i { s with phase := .idle, rsp := none, env := { s.env with rst := [] } }

/-! ### Image commands (40_image_commands.md) -/

/-- R65: `INIT`. Its word is `{0x1, 0x000, width, height, 0x0000}`. Its two errors, in their order, change nothing but
the answer; otherwise the new size is stored, every cell of the new image is 0, and no other state changes. The last
clause, that the cells beyond the new image keep their values, is the model's choice, of no rule of the spec (DESIGN
CHOICE, log entry 4). -/
def Obligations.InitConstructsImage : Prop := ∀ (w h : Dim) (s : State),
  (encode (.init w h)).toNat = 1 * 2 ^ 60 + w.toNat * 2 ^ 32 + h.toNat * 2 ^ 16 ∧
  (h.toNat % 6 ≠ 0 → exec (.init w h) s = .next { s with rsp := some 0x00010000, phase := .idle }) ∧
  (h.toNat % 6 = 0 → (∃ cap, s.params.pixcap = some cap ∧ cap < w.toNat * h.toNat) →
    exec (.init w h) s = .next { s with rsp := some 0x00050000, phase := .idle }) ∧
  (h.toNat % 6 = 0 → (∀ cap, s.params.pixcap = some cap → w.toNat * h.toNat ≤ cap) →
    ∃ pix, exec (.init w h) s = .next { s with
        width := w, height := h, valid := true, pix := pix, rsp := some 0x00000000, phase := .idle } ∧
      (∀ a < w.toNat * h.toNat, Memory.read pix a = 0) ∧
      ∀ a, w.toNat * h.toNat ≤ a → Memory.read pix a = Memory.read s.pix a)

/-- R66: `SET`. Its word is `{0x2, 0x000, x, y, color}`. Its two errors, in their order, change nothing but the
answer; otherwise the cell at `y * width + x` becomes the color, and no other cell and no other state changes. -/
def Obligations.SetWritesOneCell : Prop := ∀ (x y : Dim) (c : Color) (s : State), Memory.wf s.pix →
  (encode (.set x y c)).toNat = 2 * 2 ^ 60 + x.toNat * 2 ^ 32 + y.toNat * 2 ^ 16 + c.toNat ∧
  (s.valid = false → exec (.set x y c) s = .next { s with rsp := some 0x00040000, phase := .idle }) ∧
  (s.valid = true → s.width.toNat ≤ x.toNat ∨ s.height.toNat ≤ y.toNat →
    exec (.set x y c) s = .next { s with rsp := some 0x00030000, phase := .idle }) ∧
  (s.valid = true → x.toNat < s.width.toNat → y.toNat < s.height.toNat →
    ∃ pix, exec (.set x y c) s = .next { s with pix := pix, rsp := some 0x00000000, phase := .idle } ∧
      Memory.read pix (y.toNat * s.width.toNat + x.toNat) = c ∧
      ∀ a, a ≠ y.toNat * s.width.toNat + x.toNat → Memory.read pix a = Memory.read s.pix a)

/-- R67: `GET`. Its word is `{0x3, 0x000, x, y, 0x0000}`. Its two errors, in their order, answer data 0; otherwise the
answer's data is the cell at `y * width + x`. No state but the answer changes. -/
def Obligations.GetReadsOneCell : Prop := ∀ (x y : Dim) (s : State),
  (encode (.get x y)).toNat = 3 * 2 ^ 60 + x.toNat * 2 ^ 32 + y.toNat * 2 ^ 16 ∧
  (s.valid = false → exec (.get x y) s = .next { s with rsp := some 0x00040000, phase := .idle }) ∧
  (s.valid = true → s.width.toNat ≤ x.toNat ∨ s.height.toNat ≤ y.toNat →
    exec (.get x y) s = .next { s with rsp := some 0x00030000, phase := .idle }) ∧
  (s.valid = true → x.toNat < s.width.toNat → y.toNat < s.height.toNat →
    exec (.get x y) s = .next { s with
      rsp := some (BitVec.ofNat 32 (Memory.read s.pix (y.toNat * s.width.toNat + x.toNat)).toNat)
      phase := .idle })

/-- R68: after a `SET x, y, c` that ends `OK`, and any commands that neither construct an image nor write `(x, y)`, a
`GET x, y` answers `OK` with data `c`: for the meanings of the commands in a row, and for the machine's steps, where
the commands between may be whole `ENCODE`s and the steps between anything but `rst`, an `INIT` or a `SET` of that
pixel. -/
def Obligations.GetAfterSet : Prop := ∀ (x y : Dim) (c : Color) (s : State),
  Memory.wf s.pix → s.valid = true → x.toNat < s.width.toNat → y.toNat < s.height.toNat →
  (∀ between : List Instr, (∀ i ∈ between, leavesPixel x y i = true) →
    ∃ t u, execAll (.set x y c :: between) s = .next t ∧ exec (.get x y) t = .next u ∧
      u.rsp = some (rspWord .ok c)) ∧
  (s.takesCommand (.set x y c) → ∃ t, step s = .next t ∧
    ∀ (k : Nat) (u : State), t.runsKeeping x y k u → u.takesCommand (.get x y) →
      ∃ v, step u = .next v ∧ v.rsp = some (rspWord .ok c))

/-- R70: after an `INIT w, h` that ends `OK`, and any commands that neither construct an image nor write `(x, y)`, a
`GET x, y` inside the image answers `OK` with data 0: for the meanings of the commands in a row, and for the machine's
steps, where the commands between may be whole `ENCODE`s. A height that is no multiple of 6 fails the construction. -/
def Obligations.GetAfterInitIsZero : Prop := ∀ (w h x y : Dim) (s : State),
  (h.toNat % 6 = 0 → (∀ cap, s.params.pixcap = some cap → w.toNat * h.toNat ≤ cap) →
    x.toNat < w.toNat → y.toNat < h.toNat →
    (∀ between : List Instr, (∀ i ∈ between, leavesPixel x y i = true) →
      ∃ t u, execAll (.init w h :: between) s = .next t ∧ exec (.get x y) t = .next u ∧
        u.rsp = some (rspWord .ok 0)) ∧
    (s.takesCommand (.init w h) → ∃ t, step s = .next t ∧
      ∀ (k : Nat) (u : State), t.runsKeeping x y k u → u.takesCommand (.get x y) →
        ∃ v, step u = .next v ∧ v.rsp = some (rspWord .ok 0))) ∧
  (h.toNat % 6 ≠ 0 → ∃ t, exec (.init w h) s = .next t ∧ t.rsp = some (rspWord .errDim 0) ∧ s.sameImage t)

/-- R31, R69: inside the image two pixels never share a cell, so a `SET` of one leaves the other; a `SET` that ends
with an error leaves every cell; `GET` leaves every cell; and `ENCODE`, at its start and at every later step, leaves
every cell. -/
def Obligations.PixelFrame : Prop :=
  (∀ (x y : Dim) (c : Color) (s t : State), exec (.set x y c) s = .next t →
    (s.valid = true → s.inImage x y = true → ∀ x' y' : Dim, s.inImage x' y' = true → (x', y') ≠ (x, y) →
      t.pixRead x'.toNat y'.toNat = s.pixRead x'.toNat y'.toNat) ∧
    (s.valid = false ∨ s.inImage x y = false → t.pix = s.pix)) ∧
  (∀ (x y : Dim) (s t : State), exec (.get x y) s = .next t → t.pix = s.pix) ∧
  (∀ s t : State, exec .encode s = .next t → t.pix = s.pix) ∧
  ∀ s t : State, s.busy = true → s.rstHigh = false → step s = .next t → t.pix = s.pix

/-- R31: the linear address is `y * width + x`; inside the image it is injective and less than the number of cells,
which, in a state with the invariant, the pixel memory holds. -/
def Obligations.PixelAddressesDistinct : Prop := ∀ (s : State) (x y x' y' : Dim),
  s.inImage x y = true → s.inImage x' y' = true →
  s.pixAddr x.toNat y.toNat = y.toNat * s.width.toNat + x.toNat ∧
  s.pixAddr x.toNat y.toNat < s.width.toNat * s.height.toNat ∧
  (s.Inv → s.valid = true → ∀ cap, s.params.pixcap = some cap → s.width.toNat * s.height.toNat ≤ cap) ∧
  (s.pixAddr x.toNat y.toNat = s.pixAddr x'.toNat y'.toNat → x = x' ∧ y = y')

/-- R141, 10_state.md R11: only `rst` clears `valid`; and the image changes only by `rst`, or by an `INIT` or a `SET`
taken at an open command port. -/
def Obligations.ImageChangesOnlyByInitSetReset : Prop := ∀ s t : State, step s = .next t → s.rstHigh = false →
  (s.valid = true → t.valid = true) ∧
  (s.sameImage t ∨
    s.phase = .idle ∧ s.rsp = none ∧ ∃ w, s.env.cmds.head? = some (some w) ∧
      ((∃ a b, decode w = .ok (.init a b)) ∨ ∃ a b c, decode w = .ok (.set a b c)))

/-! ### Row-stripper (41_strip_discovery.md) -/

/-- R77: the scan of a strip has the `6 * width` cells of its rows, position `j` being column `j mod width` of row `j
div width`. -/
def Obligations.ScanIsRowMajor : Prop := ∀ (s : State) (k : Nat),
  (s.scan k).length = 6 * s.width.toNat ∧
  ∀ j, j < 6 * s.width.toNat →
    (s.scan k)[j]? = some (s.pixRead (j % s.width.toNat) (6 * k + j / s.width.toNat))

/-- R79: the colors of a strip have no repetition (a), are exactly the values its pixels hold (b), stand in the order
of their first positions in the scan (c), begin with the top-left pixel (d), and depend on the strip's cells and the
width alone (e). -/
def Obligations.ColorsInFirstSeenOrder : Prop := ∀ (s : State) (k : Nat),
  (s.colors k).Nodup ∧
  (∀ v, v ∈ s.colors k ↔ ∃ x r, x < s.width.toNat ∧ r < 6 ∧ s.pixRead x (6 * k + r) = v) ∧
  (s.colors k).Pairwise (fun u v => (s.scan k).idxOf u < (s.scan k).idxOf v) ∧
  (0 < s.width.toNat → (s.colors k).head? = some (s.pixRead 0 (6 * k))) ∧
  ∀ t : State, t.width = s.width →
    (∀ x r, x < s.width.toNat → r < 6 → t.pixRead x (6 * k + r) = s.pixRead x (6 * k + r)) →
    t.colors k = s.colors k

/-- R81: a strip has at most `min(6 * width, 65536)` colors, and none exactly when the width is 0. -/
def Obligations.ColorsLengthBound : Prop := ∀ (s : State) (k : Nat),
  (s.colors k).length ≤ min (6 * s.width.toNat) 65536 ∧ ((s.colors k).length = 0 ↔ s.width.toNat = 0)

/-! ### Bitmask generator (42_bitmask.md) -/

/-- R83, R84, R85: bit `i` of the mask says whether the pixel in row `i` of the strip has the color, for the six rows
and no others; the color-run byte is 63 more than the mask. -/
def Obligations.MaskBitIsRowMatch : Prop := ∀ (s : State) (k : Nat) (c : Color) (x : Nat),
  (∀ i, (s.mask k c x).testBit i = true ↔ i < 6 ∧ s.pixRead x (6 * k + i) = c) ∧
  (s.crb k c x).toNat = 63 + s.mask k c x

/-- R87: a color-run byte is between 63 and 126. -/
def Obligations.ColorRunByteRange : Prop := ∀ (s : State) (k : Nat) (c : Color) (x : Nat),
  63 ≤ (s.crb k c x).toNat ∧ (s.crb k c x).toNat ≤ 126

/-- R88: a discovered color shows in some column of its strip, and a color that is not discovered in none. -/
def Obligations.DiscoveredColorShows : Prop := ∀ (s : State) (k : Nat) (c : Color),
  (c ∈ s.colors k → ∃ x, x < s.width.toNat ∧ s.mask k c x ≠ 0 ∧ s.crb k c x ≠ 63) ∧
  (c ∉ s.colors k → ∀ x, x < s.width.toNat → s.mask k c x = 0)

/-- R89: in every column of a strip the masks of its colors are pairwise disjoint and together cover the six rows. -/
def Obligations.MasksPartitionColumn : Prop := ∀ (s : State) (k x : Nat), x < s.width.toNat →
  ((s.colors k).map fun c => s.mask k c x).sum = 63 ∧
  ∀ c c' : Color, c ≠ c' → s.mask k c x &&& s.mask k c' x = 0

/-! ### Decimal numbers and the run-length compressor (30_encoding.md R57, 43_rle.md) -/

/-- R57: the two equations of `dec`, and its length for the numbers the block passes. -/
def Obligations.DecimalSpelling : Prop :=
  (∀ n, n < 10 → dec n = [BitVec.ofNat 8 (48 + n)]) ∧
  (∀ n, 10 ≤ n → dec n = dec (n / 10) ++ [BitVec.ofNat 8 (48 + n % 10)]) ∧
  ∀ n, n ≤ 65535 → 1 ≤ (dec n).length ∧ (dec n).length ≤ 5

/-- R37, R53: a decimal number is made of digits and ends where they end: two numbers followed by bytes that are no
digits, in the same byte string, are the same number. -/
def Obligations.DecimalSelfDelimiting : Prop :=
  (∀ n, ∀ b ∈ dec n, 48 ≤ b.toNat ∧ b.toNat ≤ 57) ∧
  ∀ (m n : Nat) (b c : Byte) (bs cs : List Byte), (b.toNat < 48 ∨ 57 < b.toNat) → (c.toNat < 48 ∨ 57 < c.toNat) →
    dec m ++ b :: bs = dec n ++ c :: cs → m = n ∧ b = c ∧ bs = cs

/-- R94, R95: the flush policy. -/
def Obligations.FlushPolicy : Prop := ∀ b : Byte,
  flush b 0 = [] ∧ flush b 1 = [b] ∧ flush b 2 = [b, b] ∧
  ∀ n, 3 ≤ n → flush b n = [0x21] ++ dec n ++ [b]

/-- R97: every byte string is cut into maximal runs in exactly one way, and `rle` is the flushes of the runs of that
cut. -/
def Obligations.RleFlushesMaximalRuns : Prop := ∀ bs : List Byte,
  (∃! rs : List (Byte × Nat), cutsInto bs rs) ∧
    ∀ rs, cutsInto bs rs → rle bs = rs.flatMap (fun r => flush r.1 r.2)

/-- R91 to R97: on bytes none of which is 0 the state machine, started at `(0, 0)`, writes the closed form. -/
def Obligations.CompressorMeetsClosedForm : Prop := ∀ bs : List Byte, (∀ b ∈ bs, b ≠ 0) → rleFrom 0 0 bs = rle bs

/-- R98 (d), (e): a flush is no longer than its run, and never over 7 bytes; the compressed form is no longer than the
bytes. -/
def Obligations.RleNeverLonger : Prop :=
  (∀ (b : Byte) (n : Nat), (flush b n).length ≤ n ∧ (n ≤ 65535 → (flush b n).length ≤ 7)) ∧
  ∀ bs : List Byte, (rle bs).length ≤ bs.length

/-! ### The stream of a whole image (44_encode.md R100 to R104, 30_encoding.md R50 to R55) -/

/-- R100: the corner cases and the source's example. No strips give no bytes; no columns give one `'-'` a strip; a 1 x
6 image of one color `c` gives `#`, `c` in decimal, `~$-`. -/
def Obligations.EncodeCornerCases : Prop := ∀ s : State,
  (s.height = 0 → s.encodeImage = []) ∧
  (s.width = 0 → s.encodeImage = List.replicate (s.height.toNat / 6) 0x2D) ∧
  ∀ c : Color, s.width = 1 → s.height = 6 → (∀ y < 6, s.pixRead 0 y = c) →
    s.encodeImage = [0x23] ++ dec c.toNat ++ [0x7E, 0x24, 0x2D]

/-- R50: the stream is made of the six kinds of byte. Their ASCII numbers are PRESUMED (R51, log entry 9). -/
def Obligations.StreamByteKinds : Prop := ∀ s : State, ∀ b ∈ s.encodeImage,
  b.toNat = 35 ∨ b.toNat = 33 ∨ (48 ≤ b.toNat ∧ b.toNat ≤ 57) ∨ (63 ≤ b.toNat ∧ b.toNat ≤ 126) ∨
    b.toNat = 36 ∨ b.toNat = 45

/-- R52, R54, R55: the stream is a sentence of the grammar, with one strip block per strip and one color block per
discovered color in discovery order, the tokens of each standing for the `width` color-run bytes of that color; counts
are at least 3 and at most `width`, and neighbouring tokens are as R55 says. -/
def Obligations.StreamMeetsGrammar : Prop := ∀ s : State,
  ∃ doc : List (List Block), s.encodeImage = streamBytes doc ∧ dataOk doc ∧ doc.length = s.strips ∧
    ∀ k strip, doc[k]? = some strip → strip.map Prod.fst = s.colors k ∧
      ∀ b ∈ strip, b.2.flatMap Token.expand = s.crbsFrom k b.1 0 ∧ neighboursOk b.2 ∧
        ∀ n d, Token.counted n d ∈ b.2 → 3 ≤ n ∧ n ≤ s.width.toNat

/-- R53: the grammar is self-delimiting: two sentences with the same bytes are the same. -/
def Obligations.GrammarSelfDelimiting : Prop := ∀ d e : List (List Block), dataOk d → dataOk e →
  streamBytes d = streamBytes e → d = e

/-- R118: the bound on the size of the stream. -/
def Obligations.StreamSizeBound : Prop := ∀ s : State, s.encodeImage.length ≤ s.sizeBound

/-! ### The sequencer and the output port (44_encode.md R105 to R115) -/

/-- R108: the start of an `ENCODE`, as the meaning of the command and as a step. In a state with the invariant `oq` is
empty then. -/
def Obligations.EncodeStarts : Prop :=
  (∀ s : State,
    (s.valid = false → exec .encode s = .next { s with rsp := some 0x00040000, phase := .idle }) ∧
    (s.valid = true → exec .encode s = .next { s with strip := 0, phase := .stripBegin })) ∧
  ∀ s : State, s.rstHigh = false → s.phase = .idle → s.rsp = none →
    s.env.cmds.head? = some (some 0x4000000000000000) →
    (s.valid = false → step s = .next { s with
      rsp := some 0x00040000, env := { s.env with rst := s.env.rst.tail, cmds := s.env.cmds.tail } }) ∧
    (s.valid = true → step s = .next { s with
      strip := 0, phase := .stripBegin
      env := { s.env with rst := s.env.rst.tail, cmds := s.env.cmds.tail } }) ∧
    (s.Inv → s.oq = [])

/-- R109: `STRIP_BEGIN`. -/
def Obligations.StripBeginStep : Prop := ∀ s : State, s.phase = .stripBegin →
  (s.strip.toNat = s.height.toNat / 6 → seqStep s = .next { s with phase := .finish }) ∧
  (s.valid = true → s.strip.toNat < s.height.toNat / 6 →
    seqStep s = .next { s with clist := s.colors s.strip.toNat, cidx := 0, phase := .colorBegin })

/-- R110: `COLOR_BEGIN`. -/
def Obligations.ColorBeginStep : Prop := ∀ s : State, s.phase = .colorBegin →
  (s.cidx.toNat = s.clist.length → seqStep s = .next { s with phase := .stripEnd }) ∧
  ∀ c, s.clist[s.cidx.toNat]? = some c →
    seqStep s = .next { s with
      cur := c, oq := s.oq ++ ([0x23] ++ dec c.toNat), lastByte := 0, runCount := 0, x := 0, phase := .column }

/-- R111: `COLUMN`. -/
def Obligations.ColumnStep : Prop := ∀ s : State, s.phase = .column →
  (s.valid = true → s.strip.toNat < s.height.toNat / 6 → s.x.toNat < s.width.toNat →
    let b := BitVec.ofNat 8 (63 + s.mask s.strip.toNat s.cur s.x.toNat)
    (b = s.lastByte → seqStep s = .next { s with runCount := s.runCount + 1, x := s.x + 1 }) ∧
    (b ≠ s.lastByte → seqStep s = .next { s with
      oq := s.oq ++ flush s.lastByte s.runCount.toNat, lastByte := b, runCount := 1, x := s.x + 1 })) ∧
  (s.x = s.width → seqStep s = .next { s with
    oq := s.oq ++ (flush s.lastByte s.runCount.toNat ++ [0x24]), cidx := s.cidx + 1, phase := .colorBegin })

/-- R112: `STRIP_END`. -/
def Obligations.StripEndStep : Prop := ∀ s : State, s.phase = .stripEnd →
  seqStep s = .next { s with oq := s.oq ++ [0x2D], strip := s.strip + 1, phase := .stripBegin }

/-- R113: `FINISH`: with `oq` empty the answer is `OK` and the block is idle; with `oq` not empty it is not enabled,
and the step is an offer. What the working registers hold afterwards is not said. -/
def Obligations.FinishStep : Prop := ∀ s : State, s.phase = .finish → s.rstHigh = false →
  (s.oq = [] → ∃ t, step s = .next t ∧ t.rsp = some 0x00000000 ∧ t.phase = .idle ∧ s.sameImage t ∧
    t.oq = [] ∧ t.out = s.out ∧ t.params = s.params ∧ t.env = { s.env with rst := s.env.rst.tail }) ∧
  ∀ b rest, s.oq = b :: rest → step s = .next (s.passRst.drain b rest)

/-- R105, R106, R114: the three things that can become of an offer of the head of `oq`. Not answered: it stays on
offer and nothing else changes. `ACCEPT`: it leaves `oq` for the sink's stream. `FAIL`: it and everything in `oq` are
dropped, the command ends with `ERR_SINK`, and the image is untouched. An empty list of answers is a silent sink
(DESIGN CHOICE, log entry 1); what the working registers hold after a failure is not said (log entry 6). -/
def Obligations.OfferOutcomes : Prop := ∀ (s : State) (b : Byte) (rest : List Byte), s.oq = b :: rest →
  (s.env.answers = [] → s.drain b rest = { s with out := some b }) ∧
  (∀ as, s.env.answers = none :: as →
    s.drain b rest = { s with out := some b, env := { s.env with answers := as } }) ∧
  (∀ as, s.env.answers = some .accept :: as → s.drain b rest = { s with
    oq := rest, out := none, env := { s.env with answers := as, stream := s.env.stream ++ [b] } }) ∧
  ∀ as, s.env.answers = some .fail :: as → ∃ t, s.drain b rest = t ∧ t.oq = [] ∧ t.out = none ∧
    t.rsp = some 0x00020000 ∧ t.phase = .idle ∧ s.sameImage t ∧ t.params = s.params ∧
    t.env = { s.env with answers := as }

/-- R105, R115: which steps of a running `ENCODE` are enabled. With `oq` empty, the sequencer step. With a byte on
offer, only the wait for its answer. Otherwise the drain step, and beside it the sequencer step when it is not
`FINISH` and `oq` has room; the choice between the two is an input (DESIGN CHOICE, log entry 7), and that a byte on
offer is waited for alone is DEDUCED (log entry 10). -/
def Obligations.SequencerScheduling : Prop := ∀ s : State, s.busy = true → s.rstHigh = false →
  (s.oq = [] → step s = seqStep s.passRst) ∧
  ∀ b rest, s.oq = b :: rest →
    (s.out ≠ none → step s = .next (s.passRst.drain b rest)) ∧
    (s.out = none → s.phase = .finish ∨ s.params.oqcap < s.oq.length + s.seqBytes.length →
      step s = .next (s.passRst.drain b rest)) ∧
    (s.out = none → s.phase ≠ .finish → s.oq.length + s.seqBytes.length ≤ s.params.oqcap →
      (s.env.sched.head? = some true → step s = seqStep s.passRst.passSched) ∧
      (s.env.sched.head? ≠ some true → step s = .next (s.passRst.passSched.drain b rest)))

/-- R22: no sequencer step pushes more than 8 bytes, so with `oq` empty there is always room; and what a step pushes
is what it appends to `oq`. -/
def Obligations.PushAtMostEight : Prop := ∀ s : State,
  s.seqBytes.length ≤ 8 ∧ s.seqBytes.length ≤ s.params.oqcap ∧
  ∀ t, seqStep s = .next t → t.oq = s.oq ++ s.seqBytes

/-- R43: `ENCODE` leaves `pix`, `width`, `height` and `valid` as it found them, at its start and at each step until it
has ended, however it ends. -/
def Obligations.EncodeIsReadOnly : Prop :=
  (∀ s t : State, exec .encode s = .next t → s.sameImage t) ∧
  ∀ s t : State, s.busy = true → s.rstHigh = false → step s = .next t → s.sameImage t

/-- R45, R146: the command port is closed while an `ENCODE` runs and while a response waits: no word is taken. -/
def Obligations.CommandPortClosed : Prop := ∀ s t : State, s.busy = true ∨ s.rsp ≠ none → s.rstHigh = false →
  step s = .next t → t.env.cmds = s.env.cmds

/-- R40, R105: the sink's stream grows only by the head of `oq`, one byte a step, only while an `ENCODE` runs and only
when the sink has answered `ACCEPT`; nothing delivered is taken back, not even by `rst`. -/
def Obligations.StreamGrowsByAcceptedHead : Prop := ∀ s t : State, step s = .next t →
  t.env.stream = s.env.stream ∨
  s.rstHigh = false ∧ s.busy = true ∧ s.env.answers.head? = some (some .accept) ∧
    ∃ b, s.oq.head? = some b ∧ t.env.stream = s.env.stream ++ [b]

/-- R149: while the sink does not answer the byte on offer, the block stays as it is, however long. That nothing else
of the block moves meanwhile, `oq` and the sequencer's position included, is DEDUCED from R26 and R105 (log entry 10).
A sink that never answers again is an empty list of answers (DESIGN CHOICE, log entry 1). -/
def Obligations.SilentSinkBlocks : Prop := ∀ (s : State) (b : Byte) (k : Nat), s.busy = true → s.oq.head? = some b →
  s.out = some b → s.env.rst = [] → s.env.answers = [] → Host.Core.run Sys2Proof.core k s = .next s

/-! ### Responses and reset (60_exceptions.md, 70_reset_and_hazards.md) -/

/-- R45: a waiting response is handed over when the host takes it and waits when it does not; nothing else happens.
How the host's readiness stands in the state is the model's (DESIGN CHOICE, log entry 1). -/
def Obligations.ResponseHandedOver : Prop := ∀ (s : State) (r : RspWord), s.rstHigh = false → s.phase = .idle →
  s.rsp = some r →
  (∀ ts, s.env.takes = true :: ts → step s = .next { s with
    rsp := none
    env := { s.env with rst := s.env.rst.tail, takes := ts, received := s.env.received ++ [r] } }) ∧
  (∀ ts, s.env.takes = false :: ts →
    step s = .next { s with env := { s.env with rst := s.env.rst.tail, takes := ts } }) ∧
  (s.env.takes = [] → step s = .next s.passRst)

/-- R23: the block's state after reset, for any parameters and outside world, `State.reset` among them. What `pix`
holds is not said. -/
def Obligations.ResetStateTable : Prop :=
  (∀ (p : Params) (e : Env), let s := State.resetOf p e
    s.valid = false ∧ s.width = 0 ∧ s.height = 0 ∧ s.phase = .idle ∧
    s.strip = 0 ∧ s.cidx = 0 ∧ s.cur = 0 ∧ s.x = 0 ∧ s.lastByte = 0 ∧ s.runCount = 0 ∧
    s.clist = [] ∧ s.oq = [] ∧ s.rsp = none ∧ s.out = none) ∧
  ∃ (p : Params) (e : Env), State.reset = State.resetOf p e

/-- R140, R142: `rst` at any moment, a running `ENCODE` included: every element to the reset table, no response, and
what the sink has accepted stays accepted. What `pix` holds afterwards is not said. -/
def Obligations.ResetAtAnyTime : Prop := ∀ (s : State) (rs : List Bool), s.env.rst = true :: rs →
  ∃ t, step s = .next t ∧ t.valid = false ∧ t.width = 0 ∧ t.height = 0 ∧ t.phase = .idle ∧ t.strip = 0 ∧
    t.cidx = 0 ∧ t.cur = 0 ∧ t.x = 0 ∧ t.lastByte = 0 ∧ t.runCount = 0 ∧ t.clist = [] ∧ t.oq = [] ∧
    t.rsp = none ∧ t.out = none ∧ t.params = s.params ∧ t.env = { s.env with rst := rs }

/-! ### The whole machine -/

/-- The invariant holds at reset, for any parameters and outside world; and the block's state is the same for all of
them. That `pix` too is the same is the model's choice (DESIGN CHOICE, log entry 4). -/
def Obligations.InvariantAtReset : Prop :=
  State.reset.Inv ∧ ∀ (p : Params) (e : Env),
    (State.resetOf p e).Inv ∧ (State.resetOf p e).toBlockState = State.reset.toBlockState

/-- R13, R16, R17, R22, R31, R44: every step keeps the invariant: an image's height is a multiple of 6 and it fits the
memory, the memory stays canonical, the queue stays within its capacity and is empty when idle, and the sequencer's
position, color list and pending run stay within their bounds. -/
def Obligations.StepKeepsInvariant : Prop := ∀ s t : State, s.Inv → step s = .next t → t.Inv

/-- R116: in a state with the invariant no step stops the machine: every pixel read is inside the image. -/
def Obligations.InvariantNeverStops : Prop := ∀ s : State, s.Inv → ∃ t, step s = .next t

/-- R116: each step of a running `ENCODE` keeps the account of bytes (those delivered, then those in `oq`, then those
its position has still to push), unless the sink fails it. -/
def Obligations.EncodeKeepsAccount : Prop := ∀ s t : State, s.Inv → s.busy = true → s.rstHigh = false →
  step s = .next t →
  t.account = s.account ∨
  s.env.answers.head? = some (some .fail) ∧ t.env.stream = s.env.stream ∧ t.phase = .idle ∧
    t.rsp = some 0x00020000

/-- R113, R116, R118: an `ENCODE` whose sink accepts every byte ends, after the sequencer steps of R118 and one drain
step a byte, with `OK`, the sink holding all of `encode_image()` and nothing else, and the image unchanged; whatever
the schedule. -/
def Obligations.EncodeRunsToCompletion : Prop := ∀ s : State, s.encodeOffered →
  s.sinkAccepts s.encodeImage.length →
  ∃ t, Host.Core.run Sys2Proof.core (s.seqSteps + s.encodeImage.length) s = .next t ∧ t.phase = .idle ∧
    t.rsp = some 0x00000000 ∧ t.env.stream = s.env.stream ++ s.encodeImage ∧ s.sameImage t ∧
    t.env.cmds = s.env.cmds.tail

/-- R48, R107, R116: whatever the sink, the host and the schedule do, after any number of steps of one `ENCODE` (no
other command follows and `rst` stays low) one of these holds. It is still running: no response, and what the sink
accepted and what `oq` holds are together the beginning of `encode_image()`. It has answered `OK`: the sink accepted
all of `encode_image()`. It has answered `ERR_SINK`: the sink accepted a proper beginning of it. The image is
unchanged throughout. -/
def Obligations.EncodeOutcomes : Prop := ∀ (s t : State) (k : Nat), s.encodeOffered → s.env.cmds.tail = [] →
  Host.Core.run Sys2Proof.core k s = .next t →
  s.sameImage t ∧ ∃ p, t.env.stream = s.env.stream ++ p ∧
    (t.responses = s.responses ∧ (k = 0 ∨ t.busy = true) ∧ p ++ t.oq <+: s.encodeImage ∨
     t.responses = s.responses ++ [0x00000000] ∧ t.busy = false ∧ p = s.encodeImage ∨
     t.responses = s.responses ++ [0x00020000] ∧ t.busy = false ∧ p <+: s.encodeImage ∧ p ≠ s.encodeImage)

/-- R106, R107: a failure at each byte is possible: when the sink accepts `k` bytes and fails the next, the `ENCODE`
ends with `ERR_SINK`, the sink holding the first `k` bytes of `encode_image()`, the image unchanged. -/
def Obligations.EncodeFailsAtAnyByte : Prop := ∀ (s : State) (k : Nat), s.encodeOffered →
  k < s.encodeImage.length → s.sinkAccepts k → s.env.answers[k]? = some (some .fail) →
  ∃ n t, Host.Core.run Sys2Proof.core n s = .next t ∧ t.phase = .idle ∧ t.rsp = some 0x00020000 ∧
    t.env.stream = s.env.stream ++ s.encodeImage.take k ∧ s.sameImage t

/-- R117: encoding the same image twice, from any two states that hold it, to sinks that accept every byte, delivers
the same bytes; what the working registers, the queue's capacity and the schedule are does not matter. -/
def Obligations.EncodeDependsOnImageOnly : Prop := ∀ s t : State, s.encodeOffered → t.encodeOffered → s.sameImage t →
  s.sinkAccepts s.encodeImage.length → t.sinkAccepts s.encodeImage.length →
  ∃ bs m n u v, Host.Core.run Sys2Proof.core m s = .next u ∧ Host.Core.run Sys2Proof.core n t = .next v ∧
    u.rsp = some 0x00000000 ∧ v.rsp = some 0x00000000 ∧
    u.env.stream = s.env.stream ++ bs ∧ v.env.stream = t.env.stream ++ bs

/-! ### What is not state (10_state.md R24) -/

/-- R24: the block's next state is a function of its state, the parameters and the inputs of this one step: two states
with the same block state, whatever inputs are still to come in each and whatever has been delivered, step alike. The
counter `draws`, which numbers the free values, is the model's own (DESIGN CHOICE, log entry 6). -/
def Obligations.BlockStepsByItsInputs : Prop := ∀ s t : State,
  t.toBlockState = s.toBlockState → t.params = s.params → t.draws = s.draws → t.inputs = s.inputs →
  (∀ s', step s = .next s' → ∃ t', step t = .next t' ∧ t'.toBlockState = s'.toBlockState ∧ t'.draws = s'.draws) ∧
  ∀ f, step s = .fault f → step t = .fault f

/-- R24: the parameters never change, and of the outside world a step uses the inputs of that step and no later one,
and delivers; no step makes or changes an input. -/
def Obligations.InputsAreOnlyConsumed : Prop := ∀ s t : State, step s = .next t →
  t.params = s.params ∧ s.env.consumedTo t.env
end

