-- ==== Sys2Proof/Laws/Image.lean ====
section
/-! SUPPORT. Everything an ENCODE writes is a function of the image alone (44_encode.md R103): the same image gives the
same cells, colors, color-run bytes and blocks, whatever the other fields hold. -/

namespace Sys2Proof.Machine

theorem State.pixRead_congr {s t : State} (hw : t.width = s.width) (hp : t.pix = s.pix) :
    t.pixRead = s.pixRead := by
  funext x y; simp only [State.pixRead, State.pixAddr, hw, hp]

theorem State.colors_congr {s t : State} (hw : t.width = s.width) (hp : t.pix = s.pix) : t.colors = s.colors := by
  funext k; simp only [State.colors, State.scan, State.pixRead_congr hw hp, hw]

theorem State.crb_congr {s t : State} (hw : t.width = s.width) (hp : t.pix = s.pix) : t.crb = s.crb := by
  have hl : t.laneMatch = s.laneMatch := by
    funext k c x i; simp only [State.laneMatch, State.pixRead_congr hw hp]
  funext k c x; simp only [State.crb, State.mask, hl]

theorem State.crbsFrom_congr {s t : State} (hw : t.width = s.width) (hp : t.pix = s.pix) :
    t.crbsFrom = s.crbsFrom := by
  funext k c x; simp only [State.crbsFrom, State.crb_congr hw hp, hw]

theorem State.colorBlock_congr {s t : State} (hw : t.width = s.width) (hp : t.pix = s.pix) :
    t.colorBlock = s.colorBlock := by
  funext k c; simp only [State.colorBlock, State.crbsFrom_congr hw hp]

theorem State.stripsFrom_congr {s t : State} (hw : t.width = s.width) (hh : t.height = s.height)
    (hp : t.pix = s.pix) : t.stripsFrom = s.stripsFrom := by
  funext k
  have hb : t.stripBlock = s.stripBlock := by
    funext j; simp only [State.stripBlock, State.colors_congr hw hp, State.colorBlock_congr hw hp]
  simp only [State.stripsFrom, State.strips, hb, hh]

theorem State.encodeImage_congr {s t : State} (h : s.sameImage t) : t.encodeImage = s.encodeImage := by
  obtain ⟨-, hw, hh, hp⟩ := h
  simp only [State.encodeImage, State.stripsFrom_congr hw hh hp]

theorem State.sameImage_refl (s : State) : s.sameImage s := ⟨rfl, rfl, rfl, rfl⟩

theorem State.sameImage.trans {s t u : State} (h : s.sameImage t) (g : t.sameImage u) : s.sameImage u :=
  ⟨g.1.trans h.1, g.2.1.trans h.2.1, g.2.2.1.trans h.2.2.1, g.2.2.2.trans h.2.2.2⟩

end Sys2Proof.Machine
end

