-- ==== Sys2Proof/Laws/Memory.lean ====
section
/-! SUPPORT. The laws of the pixel memory: what a read gives after each operation, and that every operation keeps the
canonical form. -/

namespace Sys2Proof.Machine

@[simp] theorem Memory.read_nil (a : Nat) : Memory.read [] a = 0 := rfl

theorem Memory.wf_nil : Memory.wf [] := ⟨List.Pairwise.nil, by simp⟩

theorem Memory.wf_tail {c : Nat × Color} {m : Memory} (h : Memory.wf (c :: m)) : Memory.wf m :=
  ⟨(List.pairwise_cons.1 h.1).2, fun d hd => h.2 d (List.mem_cons_of_mem _ hd)⟩

/-- A cell not listed reads as 0. -/
theorem Memory.read_eq_zero {m : Memory} {a : Nat} (h : ∀ c ∈ m, c.1 ≠ a) : Memory.read m a = 0 := by
  induction m with
  | nil => rfl
  | cons c m ih =>
    have hne : a ≠ c.1 := fun e => h c List.mem_cons_self e.symm
    simp only [Memory.read, if_neg hne]
    exact ih fun d hd => h d (List.mem_cons_of_mem _ hd)

theorem Memory.read_consCell (a b : Nat) (v : Color) (m : Memory) (h : ∀ c ∈ m, a < c.1) :
    Memory.read (Memory.consCell a v m) b = if b = a then v else Memory.read m b := by
  unfold Memory.consCell
  split
  · rename_i hv
    split
    · subst_vars; exact Memory.read_eq_zero fun c hc => Nat.ne_of_gt (h c hc)
    · rfl
  · rfl

/-- A read after a write gives the value written at its address, and elsewhere what it gave before. -/
theorem Memory.read_write {m : Memory} (h : Memory.wf m) (a b : Nat) (v : Color) :
    Memory.read (Memory.write m a v) b = if b = a then v else Memory.read m b := by
  induction m with
  | nil => exact Memory.read_consCell a b v [] (by simp)
  | cons c m ih =>
    obtain ⟨d, u⟩ := c
    have hlt : ∀ c ∈ m, d < c.1 := (List.pairwise_cons.1 h.1).1
    simp only [Memory.write]
    split
    · rename_i had
      refine Memory.read_consCell a b v _ fun c hc => ?_
      rcases List.mem_cons.1 hc with rfl | hc
      · exact had
      · exact Nat.lt_trans had (hlt c hc)
    · split
      · rename_i had
        subst had
        rw [Memory.read_consCell a b v m hlt]
        by_cases hb : b = a <;> simp [Memory.read, hb]
      · rename_i hne
        simp only [Memory.read, ih (Memory.wf_tail h)]
        by_cases hb : b = d
        · simp [hb, Ne.symm hne]
        · simp [hb]

/-- The cells of the memory after a write are the written one and cells of the memory before. -/
theorem Memory.mem_write {m : Memory} {a : Nat} {v : Color} {c : Nat × Color} (h : c ∈ Memory.write m a v) :
    c = (a, v) ∧ v ≠ 0 ∨ c ∈ m := by
  induction m with
  | nil =>
    simp only [Memory.write, Memory.consCell] at h
    split at h
    · simp at h
    · rename_i hv; simp at h; exact .inl ⟨h, hv⟩
  | cons d m ih =>
    obtain ⟨b, u⟩ := d
    simp only [Memory.write, Memory.consCell] at h
    split at h
    · split at h
      · exact .inr h
      · rename_i hv
        rcases List.mem_cons.1 h with h | h
        · exact .inl ⟨h, hv⟩
        · exact .inr h
    · split at h
      · split at h
        · exact .inr (List.mem_cons_of_mem _ h)
        · rename_i hv
          rcases List.mem_cons.1 h with h | h
          · exact .inl ⟨h, hv⟩
          · exact .inr (List.mem_cons_of_mem _ h)
      · rcases List.mem_cons.1 h with h | h
        · exact .inr (h ▸ List.mem_cons_self)
        · exact (ih h).imp_right (List.mem_cons_of_mem _)

theorem Memory.wf_consCell {a : Nat} {v : Color} {m : Memory} (h : Memory.wf m) (hlt : ∀ c ∈ m, a < c.1) :
    Memory.wf (Memory.consCell a v m) := by
  unfold Memory.consCell
  split
  · exact h
  · rename_i hv
    refine ⟨List.pairwise_cons.2 ⟨hlt, h.1⟩, fun c hc => ?_⟩
    rcases List.mem_cons.1 hc with rfl | hc
    · exact hv
    · exact h.2 c hc

/-- A write keeps the canonical form. -/
theorem Memory.wf_write {m : Memory} (h : Memory.wf m) (a : Nat) (v : Color) : Memory.wf (Memory.write m a v) := by
  induction m with
  | nil => exact Memory.wf_consCell Memory.wf_nil (by simp)
  | cons d m ih =>
    obtain ⟨b, u⟩ := d
    have hlt : ∀ c ∈ m, b < c.1 := (List.pairwise_cons.1 h.1).1
    simp only [Memory.write]
    split
    · rename_i hab
      refine Memory.wf_consCell h fun c hc => ?_
      rcases List.mem_cons.1 hc with rfl | hc
      · exact hab
      · exact Nat.lt_trans hab (hlt c hc)
    · split
      · rename_i hab
        exact Memory.wf_consCell (Memory.wf_tail h) (hab ▸ hlt)
      · have hm := ih (Memory.wf_tail h)
        refine ⟨List.pairwise_cons.2 ⟨fun c hc => ?_, hm.1⟩, fun c hc => ?_⟩
        · rcases Memory.mem_write hc with ⟨rfl, -⟩ | hc
          · simp only; omega
          · exact hlt c hc
        · rcases List.mem_cons.1 hc with rfl | hc
          · exact h.2 _ List.mem_cons_self
          · exact hm.2 c hc

/-- The zero-fill keeps the canonical form. -/
theorem Memory.wf_zeroFill {m : Memory} (h : Memory.wf m) (n : Nat) : Memory.wf (Memory.zeroFill m n) :=
  ⟨h.1.filter _, fun c hc => h.2 c (List.mem_filter.1 hc).1⟩

/-- A read after the zero-fill gives 0 below its bound, and elsewhere what it gave before. -/
theorem Memory.read_zeroFill (m : Memory) (n a : Nat) :
    Memory.read (Memory.zeroFill m n) a = if a < n then 0 else Memory.read m a := by
  induction m with
  | nil => simp [Memory.zeroFill]
  | cons c m ih =>
    obtain ⟨b, u⟩ := c
    simp only [Memory.zeroFill] at ih ⊢
    by_cases hb : n ≤ b
    · rw [List.filter_cons_of_pos (by simpa using hb)]
      simp only [Memory.read, ih]
      by_cases hab : a = b
      · subst hab; simp [Nat.not_lt.2 hb]
      · simp [hab]
    · rw [List.filter_cons_of_neg (by simpa using hb), ih]
      by_cases hab : a = b
      · subst hab; simp [Nat.lt_of_not_le hb]
      · simp [Memory.read, hab]

/-- A memory built from cells is in canonical form. -/
theorem Memory.wf_ofCells (l : List (Nat × Color)) : Memory.wf (Memory.ofCells l) := by
  suffices h : ∀ m, Memory.wf m → Memory.wf (l.foldl (fun m c => Memory.write m c.1 c.2) m) from h [] Memory.wf_nil
  induction l with
  | nil => exact fun m h => h
  | cons c l ih => exact fun m h => ih _ (Memory.wf_write h c.1 c.2)

/-- A memory built from cells lists no others. -/
theorem Memory.mem_ofCells {l : List (Nat × Color)} {c : Nat × Color} (h : c ∈ Memory.ofCells l) : c ∈ l := by
  suffices g : ∀ m, c ∈ l.foldl (fun m c => Memory.write m c.1 c.2) m → c ∈ m ∨ c ∈ l from
    (g [] h).resolve_left (by simp)
  clear h
  induction l with
  | nil => exact fun m h => .inl h
  | cons d l ih =>
    intro m h
    rcases ih _ h with h | h
    · rcases Memory.mem_write h with ⟨rfl, -⟩ | h
      · exact .inr List.mem_cons_self
      · exact .inl h
    · exact .inr (List.mem_cons_of_mem _ h)

end Sys2Proof.Machine
end

