-- ==== Sys2Proof/Laws/PerInstr.lean ====
section
/-! SUPPORT. Statements about every command, one lemma a constructor. -/

namespace Sys2Proof.Laws.WellFormedFields

/-- The fields that a command stands for are a legal command: its operation code is one of the four, and every
must-be-zero field is zero (30_encoding.md R46, R49, R58). -/
def Statement (i : Instr) : Prop := i.wellFormed = true

theorem init (w h : Dim) : Statement (.init w h) := rfl
theorem set (x y : Dim) (c : Color) : Statement (.set x y c) := rfl
theorem get (x y : Dim) : Statement (.get x y) := rfl
theorem encode : Statement .encode := rfl

end Sys2Proof.Laws.WellFormedFields
end

