-- ==== Sys2Proof/Laws/State.lean ====
section
/-! SUPPORT. What each named update of the state does to each field: one lemma per field per update. -/

namespace Sys2Proof.Machine

/-! ### `State.pixWrite` -/

@[simp] theorem State.pixWrite_valid (s : State) (x' y' : Nat) (v : Color) :
    (s.pixWrite x' y' v).valid = s.valid := rfl
@[simp] theorem State.pixWrite_width (s : State) (x' y' : Nat) (v : Color) :
    (s.pixWrite x' y' v).width = s.width := rfl
@[simp] theorem State.pixWrite_height (s : State) (x' y' : Nat) (v : Color) :
    (s.pixWrite x' y' v).height = s.height := rfl
@[simp] theorem State.pixWrite_phase (s : State) (x' y' : Nat) (v : Color) :
    (s.pixWrite x' y' v).phase = s.phase := rfl
@[simp] theorem State.pixWrite_strip (s : State) (x' y' : Nat) (v : Color) :
    (s.pixWrite x' y' v).strip = s.strip := rfl
@[simp] theorem State.pixWrite_cidx (s : State) (x' y' : Nat) (v : Color) : (s.pixWrite x' y' v).cidx = s.cidx := rfl
@[simp] theorem State.pixWrite_cur (s : State) (x' y' : Nat) (v : Color) : (s.pixWrite x' y' v).cur = s.cur := rfl
@[simp] theorem State.pixWrite_x (s : State) (x' y' : Nat) (v : Color) : (s.pixWrite x' y' v).x = s.x := rfl
@[simp] theorem State.pixWrite_lastByte (s : State) (x' y' : Nat) (v : Color) :
    (s.pixWrite x' y' v).lastByte = s.lastByte := rfl
@[simp] theorem State.pixWrite_runCount (s : State) (x' y' : Nat) (v : Color) :
    (s.pixWrite x' y' v).runCount = s.runCount := rfl
@[simp] theorem State.pixWrite_clist (s : State) (x' y' : Nat) (v : Color) :
    (s.pixWrite x' y' v).clist = s.clist := rfl
@[simp] theorem State.pixWrite_pix (s : State) (x' y' : Nat) (v : Color) :
    (s.pixWrite x' y' v).pix = Memory.write s.pix (s.pixAddr x' y') v := rfl
@[simp] theorem State.pixWrite_oq (s : State) (x' y' : Nat) (v : Color) : (s.pixWrite x' y' v).oq = s.oq := rfl
@[simp] theorem State.pixWrite_rsp (s : State) (x' y' : Nat) (v : Color) : (s.pixWrite x' y' v).rsp = s.rsp := rfl
@[simp] theorem State.pixWrite_out (s : State) (x' y' : Nat) (v : Color) : (s.pixWrite x' y' v).out = s.out := rfl
@[simp] theorem State.pixWrite_params (s : State) (x' y' : Nat) (v : Color) :
    (s.pixWrite x' y' v).params = s.params := rfl
@[simp] theorem State.pixWrite_env (s : State) (x' y' : Nat) (v : Color) : (s.pixWrite x' y' v).env = s.env := rfl
@[simp] theorem State.pixWrite_draws (s : State) (x' y' : Nat) (v : Color) :
    (s.pixWrite x' y' v).draws = s.draws := rfl

/-! ### `State.respond` -/

@[simp] theorem State.respond_valid (s : State) (st : Status) (d : Color) : (s.respond st d).valid = s.valid := rfl
@[simp] theorem State.respond_width (s : State) (st : Status) (d : Color) : (s.respond st d).width = s.width := rfl
@[simp] theorem State.respond_height (s : State) (st : Status) (d : Color) : (s.respond st d).height = s.height := rfl
@[simp] theorem State.respond_phase (s : State) (st : Status) (d : Color) : (s.respond st d).phase = .idle := rfl
@[simp] theorem State.respond_strip (s : State) (st : Status) (d : Color) : (s.respond st d).strip = s.strip := rfl
@[simp] theorem State.respond_cidx (s : State) (st : Status) (d : Color) : (s.respond st d).cidx = s.cidx := rfl
@[simp] theorem State.respond_cur (s : State) (st : Status) (d : Color) : (s.respond st d).cur = s.cur := rfl
@[simp] theorem State.respond_x (s : State) (st : Status) (d : Color) : (s.respond st d).x = s.x := rfl
@[simp] theorem State.respond_lastByte (s : State) (st : Status) (d : Color) :
    (s.respond st d).lastByte = s.lastByte := rfl
@[simp] theorem State.respond_runCount (s : State) (st : Status) (d : Color) :
    (s.respond st d).runCount = s.runCount := rfl
@[simp] theorem State.respond_clist (s : State) (st : Status) (d : Color) : (s.respond st d).clist = s.clist := rfl
@[simp] theorem State.respond_pix (s : State) (st : Status) (d : Color) : (s.respond st d).pix = s.pix := rfl
@[simp] theorem State.respond_oq (s : State) (st : Status) (d : Color) : (s.respond st d).oq = s.oq := rfl
@[simp] theorem State.respond_rsp (s : State) (st : Status) (d : Color) :
    (s.respond st d).rsp = some (rspWord st d) := rfl
@[simp] theorem State.respond_out (s : State) (st : Status) (d : Color) : (s.respond st d).out = s.out := rfl
@[simp] theorem State.respond_params (s : State) (st : Status) (d : Color) : (s.respond st d).params = s.params := rfl
@[simp] theorem State.respond_env (s : State) (st : Status) (d : Color) : (s.respond st d).env = s.env := rfl
@[simp] theorem State.respond_draws (s : State) (st : Status) (d : Color) : (s.respond st d).draws = s.draws := rfl

/-! ### `State.raise` -/

@[simp] theorem State.raise_valid (s : State) (st : Status) : (s.raise st).valid = s.valid := rfl
@[simp] theorem State.raise_width (s : State) (st : Status) : (s.raise st).width = s.width := rfl
@[simp] theorem State.raise_height (s : State) (st : Status) : (s.raise st).height = s.height := rfl
@[simp] theorem State.raise_phase (s : State) (st : Status) : (s.raise st).phase = .idle := rfl
@[simp] theorem State.raise_strip (s : State) (st : Status) : (s.raise st).strip = s.strip := rfl
@[simp] theorem State.raise_cidx (s : State) (st : Status) : (s.raise st).cidx = s.cidx := rfl
@[simp] theorem State.raise_cur (s : State) (st : Status) : (s.raise st).cur = s.cur := rfl
@[simp] theorem State.raise_x (s : State) (st : Status) : (s.raise st).x = s.x := rfl
@[simp] theorem State.raise_lastByte (s : State) (st : Status) : (s.raise st).lastByte = s.lastByte := rfl
@[simp] theorem State.raise_runCount (s : State) (st : Status) : (s.raise st).runCount = s.runCount := rfl
@[simp] theorem State.raise_clist (s : State) (st : Status) : (s.raise st).clist = s.clist := rfl
@[simp] theorem State.raise_pix (s : State) (st : Status) : (s.raise st).pix = s.pix := rfl
@[simp] theorem State.raise_oq (s : State) (st : Status) : (s.raise st).oq = s.oq := rfl
@[simp] theorem State.raise_rsp (s : State) (st : Status) : (s.raise st).rsp = some (rspWord st 0) := rfl
@[simp] theorem State.raise_out (s : State) (st : Status) : (s.raise st).out = s.out := rfl
@[simp] theorem State.raise_params (s : State) (st : Status) : (s.raise st).params = s.params := rfl
@[simp] theorem State.raise_env (s : State) (st : Status) : (s.raise st).env = s.env := rfl
@[simp] theorem State.raise_draws (s : State) (st : Status) : (s.raise st).draws = s.draws := rfl

/-! ### `State.push` -/

@[simp] theorem State.push_valid (s : State) (bs : List Byte) : (s.push bs).valid = s.valid := rfl
@[simp] theorem State.push_width (s : State) (bs : List Byte) : (s.push bs).width = s.width := rfl
@[simp] theorem State.push_height (s : State) (bs : List Byte) : (s.push bs).height = s.height := rfl
@[simp] theorem State.push_phase (s : State) (bs : List Byte) : (s.push bs).phase = s.phase := rfl
@[simp] theorem State.push_strip (s : State) (bs : List Byte) : (s.push bs).strip = s.strip := rfl
@[simp] theorem State.push_cidx (s : State) (bs : List Byte) : (s.push bs).cidx = s.cidx := rfl
@[simp] theorem State.push_cur (s : State) (bs : List Byte) : (s.push bs).cur = s.cur := rfl
@[simp] theorem State.push_x (s : State) (bs : List Byte) : (s.push bs).x = s.x := rfl
@[simp] theorem State.push_lastByte (s : State) (bs : List Byte) : (s.push bs).lastByte = s.lastByte := rfl
@[simp] theorem State.push_runCount (s : State) (bs : List Byte) : (s.push bs).runCount = s.runCount := rfl
@[simp] theorem State.push_clist (s : State) (bs : List Byte) : (s.push bs).clist = s.clist := rfl
@[simp] theorem State.push_pix (s : State) (bs : List Byte) : (s.push bs).pix = s.pix := rfl
@[simp] theorem State.push_oq (s : State) (bs : List Byte) : (s.push bs).oq = s.oq ++ bs := rfl
@[simp] theorem State.push_rsp (s : State) (bs : List Byte) : (s.push bs).rsp = s.rsp := rfl
@[simp] theorem State.push_out (s : State) (bs : List Byte) : (s.push bs).out = s.out := rfl
@[simp] theorem State.push_params (s : State) (bs : List Byte) : (s.push bs).params = s.params := rfl
@[simp] theorem State.push_env (s : State) (bs : List Byte) : (s.push bs).env = s.env := rfl
@[simp] theorem State.push_draws (s : State) (bs : List Byte) : (s.push bs).draws = s.draws := rfl

/-! ### `State.leaveWorking` -/

@[simp] theorem State.leaveWorking_valid (s : State) : (s.leaveWorking).valid = s.valid := rfl
@[simp] theorem State.leaveWorking_width (s : State) : (s.leaveWorking).width = s.width := rfl
@[simp] theorem State.leaveWorking_height (s : State) : (s.leaveWorking).height = s.height := rfl
@[simp] theorem State.leaveWorking_phase (s : State) : (s.leaveWorking).phase = s.phase := rfl
@[simp] theorem State.leaveWorking_strip (s : State) : (s.leaveWorking).strip = Config.freeStrip s.draws := rfl
@[simp] theorem State.leaveWorking_cidx (s : State) : (s.leaveWorking).cidx = Config.freeCidx s.draws := rfl
@[simp] theorem State.leaveWorking_cur (s : State) : (s.leaveWorking).cur = Config.freeCur s.draws := rfl
@[simp] theorem State.leaveWorking_x (s : State) : (s.leaveWorking).x = Config.freeX s.draws := rfl
@[simp] theorem State.leaveWorking_lastByte (s : State) :
    (s.leaveWorking).lastByte = Config.freeLastByte s.draws := rfl
@[simp] theorem State.leaveWorking_runCount (s : State) :
    (s.leaveWorking).runCount = Config.freeRunCount s.draws := rfl
@[simp] theorem State.leaveWorking_clist (s : State) : (s.leaveWorking).clist = Config.freeClist s.draws := rfl
@[simp] theorem State.leaveWorking_pix (s : State) : (s.leaveWorking).pix = s.pix := rfl
@[simp] theorem State.leaveWorking_oq (s : State) : (s.leaveWorking).oq = s.oq := rfl
@[simp] theorem State.leaveWorking_rsp (s : State) : (s.leaveWorking).rsp = s.rsp := rfl
@[simp] theorem State.leaveWorking_out (s : State) : (s.leaveWorking).out = s.out := rfl
@[simp] theorem State.leaveWorking_params (s : State) : (s.leaveWorking).params = s.params := rfl
@[simp] theorem State.leaveWorking_env (s : State) : (s.leaveWorking).env = s.env := rfl
@[simp] theorem State.leaveWorking_draws (s : State) : (s.leaveWorking).draws = s.draws + 1 := rfl

/-! ### `State.passRst` -/

@[simp] theorem State.passRst_valid (s : State) : (s.passRst).valid = s.valid := rfl
@[simp] theorem State.passRst_width (s : State) : (s.passRst).width = s.width := rfl
@[simp] theorem State.passRst_height (s : State) : (s.passRst).height = s.height := rfl
@[simp] theorem State.passRst_phase (s : State) : (s.passRst).phase = s.phase := rfl
@[simp] theorem State.passRst_strip (s : State) : (s.passRst).strip = s.strip := rfl
@[simp] theorem State.passRst_cidx (s : State) : (s.passRst).cidx = s.cidx := rfl
@[simp] theorem State.passRst_cur (s : State) : (s.passRst).cur = s.cur := rfl
@[simp] theorem State.passRst_x (s : State) : (s.passRst).x = s.x := rfl
@[simp] theorem State.passRst_lastByte (s : State) : (s.passRst).lastByte = s.lastByte := rfl
@[simp] theorem State.passRst_runCount (s : State) : (s.passRst).runCount = s.runCount := rfl
@[simp] theorem State.passRst_clist (s : State) : (s.passRst).clist = s.clist := rfl
@[simp] theorem State.passRst_pix (s : State) : (s.passRst).pix = s.pix := rfl
@[simp] theorem State.passRst_oq (s : State) : (s.passRst).oq = s.oq := rfl
@[simp] theorem State.passRst_rsp (s : State) : (s.passRst).rsp = s.rsp := rfl
@[simp] theorem State.passRst_out (s : State) : (s.passRst).out = s.out := rfl
@[simp] theorem State.passRst_params (s : State) : (s.passRst).params = s.params := rfl
@[simp] theorem State.passRst_env (s : State) : (s.passRst).env = { s.env with rst := s.env.rst.tail } := rfl
@[simp] theorem State.passRst_draws (s : State) : (s.passRst).draws = s.draws := rfl

/-! ### `State.passCmd` -/

@[simp] theorem State.passCmd_valid (s : State) : (s.passCmd).valid = s.valid := rfl
@[simp] theorem State.passCmd_width (s : State) : (s.passCmd).width = s.width := rfl
@[simp] theorem State.passCmd_height (s : State) : (s.passCmd).height = s.height := rfl
@[simp] theorem State.passCmd_phase (s : State) : (s.passCmd).phase = s.phase := rfl
@[simp] theorem State.passCmd_strip (s : State) : (s.passCmd).strip = s.strip := rfl
@[simp] theorem State.passCmd_cidx (s : State) : (s.passCmd).cidx = s.cidx := rfl
@[simp] theorem State.passCmd_cur (s : State) : (s.passCmd).cur = s.cur := rfl
@[simp] theorem State.passCmd_x (s : State) : (s.passCmd).x = s.x := rfl
@[simp] theorem State.passCmd_lastByte (s : State) : (s.passCmd).lastByte = s.lastByte := rfl
@[simp] theorem State.passCmd_runCount (s : State) : (s.passCmd).runCount = s.runCount := rfl
@[simp] theorem State.passCmd_clist (s : State) : (s.passCmd).clist = s.clist := rfl
@[simp] theorem State.passCmd_pix (s : State) : (s.passCmd).pix = s.pix := rfl
@[simp] theorem State.passCmd_oq (s : State) : (s.passCmd).oq = s.oq := rfl
@[simp] theorem State.passCmd_rsp (s : State) : (s.passCmd).rsp = s.rsp := rfl
@[simp] theorem State.passCmd_out (s : State) : (s.passCmd).out = s.out := rfl
@[simp] theorem State.passCmd_params (s : State) : (s.passCmd).params = s.params := rfl
@[simp] theorem State.passCmd_env (s : State) : (s.passCmd).env = { s.env with cmds := s.env.cmds.tail } := rfl
@[simp] theorem State.passCmd_draws (s : State) : (s.passCmd).draws = s.draws := rfl

/-! ### `State.passSched` -/

@[simp] theorem State.passSched_valid (s : State) : (s.passSched).valid = s.valid := rfl
@[simp] theorem State.passSched_width (s : State) : (s.passSched).width = s.width := rfl
@[simp] theorem State.passSched_height (s : State) : (s.passSched).height = s.height := rfl
@[simp] theorem State.passSched_phase (s : State) : (s.passSched).phase = s.phase := rfl
@[simp] theorem State.passSched_strip (s : State) : (s.passSched).strip = s.strip := rfl
@[simp] theorem State.passSched_cidx (s : State) : (s.passSched).cidx = s.cidx := rfl
@[simp] theorem State.passSched_cur (s : State) : (s.passSched).cur = s.cur := rfl
@[simp] theorem State.passSched_x (s : State) : (s.passSched).x = s.x := rfl
@[simp] theorem State.passSched_lastByte (s : State) : (s.passSched).lastByte = s.lastByte := rfl
@[simp] theorem State.passSched_runCount (s : State) : (s.passSched).runCount = s.runCount := rfl
@[simp] theorem State.passSched_clist (s : State) : (s.passSched).clist = s.clist := rfl
@[simp] theorem State.passSched_pix (s : State) : (s.passSched).pix = s.pix := rfl
@[simp] theorem State.passSched_oq (s : State) : (s.passSched).oq = s.oq := rfl
@[simp] theorem State.passSched_rsp (s : State) : (s.passSched).rsp = s.rsp := rfl
@[simp] theorem State.passSched_out (s : State) : (s.passSched).out = s.out := rfl
@[simp] theorem State.passSched_params (s : State) : (s.passSched).params = s.params := rfl
@[simp] theorem State.passSched_env (s : State) : (s.passSched).env = { s.env with sched := s.env.sched.tail } := rfl
@[simp] theorem State.passSched_draws (s : State) : (s.passSched).draws = s.draws := rfl

/-! ### `State.takeReset` -/

@[simp] theorem State.takeReset_valid (s : State) : (s.takeReset).valid = false := rfl
@[simp] theorem State.takeReset_width (s : State) : (s.takeReset).width = 0 := rfl
@[simp] theorem State.takeReset_height (s : State) : (s.takeReset).height = 0 := rfl
@[simp] theorem State.takeReset_phase (s : State) : (s.takeReset).phase = .idle := rfl
@[simp] theorem State.takeReset_strip (s : State) : (s.takeReset).strip = 0 := rfl
@[simp] theorem State.takeReset_cidx (s : State) : (s.takeReset).cidx = 0 := rfl
@[simp] theorem State.takeReset_cur (s : State) : (s.takeReset).cur = 0 := rfl
@[simp] theorem State.takeReset_x (s : State) : (s.takeReset).x = 0 := rfl
@[simp] theorem State.takeReset_lastByte (s : State) : (s.takeReset).lastByte = 0 := rfl
@[simp] theorem State.takeReset_runCount (s : State) : (s.takeReset).runCount = 0 := rfl
@[simp] theorem State.takeReset_clist (s : State) : (s.takeReset).clist = [] := rfl
@[simp] theorem State.takeReset_pix (s : State) : (s.takeReset).pix = s.pixAfterRst := rfl
@[simp] theorem State.takeReset_oq (s : State) : (s.takeReset).oq = [] := rfl
@[simp] theorem State.takeReset_rsp (s : State) : (s.takeReset).rsp = none := rfl
@[simp] theorem State.takeReset_out (s : State) : (s.takeReset).out = none := rfl
@[simp] theorem State.takeReset_params (s : State) : (s.takeReset).params = s.params := rfl
@[simp] theorem State.takeReset_env (s : State) : (s.takeReset).env = s.env := rfl
@[simp] theorem State.takeReset_draws (s : State) : (s.takeReset).draws = s.draws + 1 := rfl

/-! ### `State.accepted` -/

@[simp] theorem State.accepted_valid (s : State) (b : Byte) (r : List Byte) : (s.accepted b r).valid = s.valid := rfl
@[simp] theorem State.accepted_width (s : State) (b : Byte) (r : List Byte) : (s.accepted b r).width = s.width := rfl
@[simp] theorem State.accepted_height (s : State) (b : Byte) (r : List Byte) :
    (s.accepted b r).height = s.height := rfl
@[simp] theorem State.accepted_phase (s : State) (b : Byte) (r : List Byte) : (s.accepted b r).phase = s.phase := rfl
@[simp] theorem State.accepted_strip (s : State) (b : Byte) (r : List Byte) : (s.accepted b r).strip = s.strip := rfl
@[simp] theorem State.accepted_cidx (s : State) (b : Byte) (r : List Byte) : (s.accepted b r).cidx = s.cidx := rfl
@[simp] theorem State.accepted_cur (s : State) (b : Byte) (r : List Byte) : (s.accepted b r).cur = s.cur := rfl
@[simp] theorem State.accepted_x (s : State) (b : Byte) (r : List Byte) : (s.accepted b r).x = s.x := rfl
@[simp] theorem State.accepted_lastByte (s : State) (b : Byte) (r : List Byte) :
    (s.accepted b r).lastByte = s.lastByte := rfl
@[simp] theorem State.accepted_runCount (s : State) (b : Byte) (r : List Byte) :
    (s.accepted b r).runCount = s.runCount := rfl
@[simp] theorem State.accepted_clist (s : State) (b : Byte) (r : List Byte) : (s.accepted b r).clist = s.clist := rfl
@[simp] theorem State.accepted_pix (s : State) (b : Byte) (r : List Byte) : (s.accepted b r).pix = s.pix := rfl
@[simp] theorem State.accepted_oq (s : State) (b : Byte) (r : List Byte) : (s.accepted b r).oq = r := rfl
@[simp] theorem State.accepted_rsp (s : State) (b : Byte) (r : List Byte) : (s.accepted b r).rsp = s.rsp := rfl
@[simp] theorem State.accepted_out (s : State) (b : Byte) (r : List Byte) : (s.accepted b r).out = none := rfl
@[simp] theorem State.accepted_params (s : State) (b : Byte) (r : List Byte) :
    (s.accepted b r).params = s.params := rfl
@[simp] theorem State.accepted_env (s : State) (b : Byte) (r : List Byte) :
    (s.accepted b r).env = { s.env with stream := s.env.stream ++ [b] } := rfl
@[simp] theorem State.accepted_draws (s : State) (b : Byte) (r : List Byte) : (s.accepted b r).draws = s.draws := rfl

/-! ### `State.sinkFailed` -/

@[simp] theorem State.sinkFailed_valid (s : State) : (s.sinkFailed).valid = s.valid := rfl
@[simp] theorem State.sinkFailed_width (s : State) : (s.sinkFailed).width = s.width := rfl
@[simp] theorem State.sinkFailed_height (s : State) : (s.sinkFailed).height = s.height := rfl
@[simp] theorem State.sinkFailed_phase (s : State) : (s.sinkFailed).phase = .idle := rfl
@[simp] theorem State.sinkFailed_strip (s : State) : (s.sinkFailed).strip = Config.freeStrip s.draws := rfl
@[simp] theorem State.sinkFailed_cidx (s : State) : (s.sinkFailed).cidx = Config.freeCidx s.draws := rfl
@[simp] theorem State.sinkFailed_cur (s : State) : (s.sinkFailed).cur = Config.freeCur s.draws := rfl
@[simp] theorem State.sinkFailed_x (s : State) : (s.sinkFailed).x = Config.freeX s.draws := rfl
@[simp] theorem State.sinkFailed_lastByte (s : State) : (s.sinkFailed).lastByte = Config.freeLastByte s.draws := rfl
@[simp] theorem State.sinkFailed_runCount (s : State) : (s.sinkFailed).runCount = Config.freeRunCount s.draws := rfl
@[simp] theorem State.sinkFailed_clist (s : State) : (s.sinkFailed).clist = Config.freeClist s.draws := rfl
@[simp] theorem State.sinkFailed_pix (s : State) : (s.sinkFailed).pix = s.pix := rfl
@[simp] theorem State.sinkFailed_oq (s : State) : (s.sinkFailed).oq = [] := rfl
@[simp] theorem State.sinkFailed_rsp (s : State) : (s.sinkFailed).rsp = some (rspWord .errSink 0) := rfl
@[simp] theorem State.sinkFailed_out (s : State) : (s.sinkFailed).out = none := rfl
@[simp] theorem State.sinkFailed_params (s : State) : (s.sinkFailed).params = s.params := rfl
@[simp] theorem State.sinkFailed_env (s : State) : (s.sinkFailed).env = s.env := rfl
@[simp] theorem State.sinkFailed_draws (s : State) : (s.sinkFailed).draws = s.draws + 1 := rfl

/-! ### `State.newImage` -/

@[simp] theorem State.newImage_valid (s : State) (w h : Dim) : (s.newImage w h).valid = true := rfl
@[simp] theorem State.newImage_width (s : State) (w h : Dim) : (s.newImage w h).width = w := rfl
@[simp] theorem State.newImage_height (s : State) (w h : Dim) : (s.newImage w h).height = h := rfl
@[simp] theorem State.newImage_phase (s : State) (w h : Dim) : (s.newImage w h).phase = s.phase := rfl
@[simp] theorem State.newImage_strip (s : State) (w h : Dim) : (s.newImage w h).strip = s.strip := rfl
@[simp] theorem State.newImage_cidx (s : State) (w h : Dim) : (s.newImage w h).cidx = s.cidx := rfl
@[simp] theorem State.newImage_cur (s : State) (w h : Dim) : (s.newImage w h).cur = s.cur := rfl
@[simp] theorem State.newImage_x (s : State) (w h : Dim) : (s.newImage w h).x = s.x := rfl
@[simp] theorem State.newImage_lastByte (s : State) (w h : Dim) : (s.newImage w h).lastByte = s.lastByte := rfl
@[simp] theorem State.newImage_runCount (s : State) (w h : Dim) : (s.newImage w h).runCount = s.runCount := rfl
@[simp] theorem State.newImage_clist (s : State) (w h : Dim) : (s.newImage w h).clist = s.clist := rfl
@[simp] theorem State.newImage_pix (s : State) (w h : Dim) :
    (s.newImage w h).pix = Memory.zeroFill s.pix (cellCount w h) := rfl
@[simp] theorem State.newImage_oq (s : State) (w h : Dim) : (s.newImage w h).oq = s.oq := rfl
@[simp] theorem State.newImage_rsp (s : State) (w h : Dim) : (s.newImage w h).rsp = s.rsp := rfl
@[simp] theorem State.newImage_out (s : State) (w h : Dim) : (s.newImage w h).out = s.out := rfl
@[simp] theorem State.newImage_params (s : State) (w h : Dim) : (s.newImage w h).params = s.params := rfl
@[simp] theorem State.newImage_env (s : State) (w h : Dim) : (s.newImage w h).env = s.env := rfl
@[simp] theorem State.newImage_draws (s : State) (w h : Dim) : (s.newImage w h).draws = s.draws := rfl

/-! ### `State.feedRun` -/

@[simp] theorem State.feedRun_valid (s : State) (b : Byte) : (s.feedRun b).valid = s.valid := rfl
@[simp] theorem State.feedRun_width (s : State) (b : Byte) : (s.feedRun b).width = s.width := rfl
@[simp] theorem State.feedRun_height (s : State) (b : Byte) : (s.feedRun b).height = s.height := rfl
@[simp] theorem State.feedRun_phase (s : State) (b : Byte) : (s.feedRun b).phase = s.phase := rfl
@[simp] theorem State.feedRun_strip (s : State) (b : Byte) : (s.feedRun b).strip = s.strip := rfl
@[simp] theorem State.feedRun_cidx (s : State) (b : Byte) : (s.feedRun b).cidx = s.cidx := rfl
@[simp] theorem State.feedRun_cur (s : State) (b : Byte) : (s.feedRun b).cur = s.cur := rfl
@[simp] theorem State.feedRun_x (s : State) (b : Byte) : (s.feedRun b).x = s.x := rfl
@[simp] theorem State.feedRun_lastByte (s : State) (b : Byte) : (s.feedRun b).lastByte = b := rfl
@[simp] theorem State.feedRun_runCount (s : State) (b : Byte) :
    (s.feedRun b).runCount = if b = s.lastByte then s.runCount + 1 else 1 := rfl
@[simp] theorem State.feedRun_clist (s : State) (b : Byte) : (s.feedRun b).clist = s.clist := rfl
@[simp] theorem State.feedRun_pix (s : State) (b : Byte) : (s.feedRun b).pix = s.pix := rfl
@[simp] theorem State.feedRun_oq (s : State) (b : Byte) : (s.feedRun b).oq = s.oq := rfl
@[simp] theorem State.feedRun_rsp (s : State) (b : Byte) : (s.feedRun b).rsp = s.rsp := rfl
@[simp] theorem State.feedRun_out (s : State) (b : Byte) : (s.feedRun b).out = s.out := rfl
@[simp] theorem State.feedRun_params (s : State) (b : Byte) : (s.feedRun b).params = s.params := rfl
@[simp] theorem State.feedRun_env (s : State) (b : Byte) : (s.feedRun b).env = s.env := rfl
@[simp] theorem State.feedRun_draws (s : State) (b : Byte) : (s.feedRun b).draws = s.draws := rfl

/-! ### `State.firstStrip` -/

@[simp] theorem State.firstStrip_valid (s : State) : (s.firstStrip).valid = s.valid := rfl
@[simp] theorem State.firstStrip_width (s : State) : (s.firstStrip).width = s.width := rfl
@[simp] theorem State.firstStrip_height (s : State) : (s.firstStrip).height = s.height := rfl
@[simp] theorem State.firstStrip_phase (s : State) : (s.firstStrip).phase = .stripBegin := rfl
@[simp] theorem State.firstStrip_strip (s : State) : (s.firstStrip).strip = 0 := rfl
@[simp] theorem State.firstStrip_cidx (s : State) : (s.firstStrip).cidx = s.cidx := rfl
@[simp] theorem State.firstStrip_cur (s : State) : (s.firstStrip).cur = s.cur := rfl
@[simp] theorem State.firstStrip_x (s : State) : (s.firstStrip).x = s.x := rfl
@[simp] theorem State.firstStrip_lastByte (s : State) : (s.firstStrip).lastByte = s.lastByte := rfl
@[simp] theorem State.firstStrip_runCount (s : State) : (s.firstStrip).runCount = s.runCount := rfl
@[simp] theorem State.firstStrip_clist (s : State) : (s.firstStrip).clist = s.clist := rfl
@[simp] theorem State.firstStrip_pix (s : State) : (s.firstStrip).pix = s.pix := rfl
@[simp] theorem State.firstStrip_oq (s : State) : (s.firstStrip).oq = s.oq := rfl
@[simp] theorem State.firstStrip_rsp (s : State) : (s.firstStrip).rsp = s.rsp := rfl
@[simp] theorem State.firstStrip_out (s : State) : (s.firstStrip).out = s.out := rfl
@[simp] theorem State.firstStrip_params (s : State) : (s.firstStrip).params = s.params := rfl
@[simp] theorem State.firstStrip_env (s : State) : (s.firstStrip).env = s.env := rfl
@[simp] theorem State.firstStrip_draws (s : State) : (s.firstStrip).draws = s.draws := rfl

/-! ### `State.enter` -/

@[simp] theorem State.enter_valid (s : State) (p : Phase) : (s.enter p).valid = s.valid := rfl
@[simp] theorem State.enter_width (s : State) (p : Phase) : (s.enter p).width = s.width := rfl
@[simp] theorem State.enter_height (s : State) (p : Phase) : (s.enter p).height = s.height := rfl
@[simp] theorem State.enter_phase (s : State) (p : Phase) : (s.enter p).phase = p := rfl
@[simp] theorem State.enter_strip (s : State) (p : Phase) : (s.enter p).strip = s.strip := rfl
@[simp] theorem State.enter_cidx (s : State) (p : Phase) : (s.enter p).cidx = s.cidx := rfl
@[simp] theorem State.enter_cur (s : State) (p : Phase) : (s.enter p).cur = s.cur := rfl
@[simp] theorem State.enter_x (s : State) (p : Phase) : (s.enter p).x = s.x := rfl
@[simp] theorem State.enter_lastByte (s : State) (p : Phase) : (s.enter p).lastByte = s.lastByte := rfl
@[simp] theorem State.enter_runCount (s : State) (p : Phase) : (s.enter p).runCount = s.runCount := rfl
@[simp] theorem State.enter_clist (s : State) (p : Phase) : (s.enter p).clist = s.clist := rfl
@[simp] theorem State.enter_pix (s : State) (p : Phase) : (s.enter p).pix = s.pix := rfl
@[simp] theorem State.enter_oq (s : State) (p : Phase) : (s.enter p).oq = s.oq := rfl
@[simp] theorem State.enter_rsp (s : State) (p : Phase) : (s.enter p).rsp = s.rsp := rfl
@[simp] theorem State.enter_out (s : State) (p : Phase) : (s.enter p).out = s.out := rfl
@[simp] theorem State.enter_params (s : State) (p : Phase) : (s.enter p).params = s.params := rfl
@[simp] theorem State.enter_env (s : State) (p : Phase) : (s.enter p).env = s.env := rfl
@[simp] theorem State.enter_draws (s : State) (p : Phase) : (s.enter p).draws = s.draws := rfl

/-! ### `State.firstColor` -/

@[simp] theorem State.firstColor_valid (s : State) : (s.firstColor).valid = s.valid := rfl
@[simp] theorem State.firstColor_width (s : State) : (s.firstColor).width = s.width := rfl
@[simp] theorem State.firstColor_height (s : State) : (s.firstColor).height = s.height := rfl
@[simp] theorem State.firstColor_phase (s : State) : (s.firstColor).phase = .colorBegin := rfl
@[simp] theorem State.firstColor_strip (s : State) : (s.firstColor).strip = s.strip := rfl
@[simp] theorem State.firstColor_cidx (s : State) : (s.firstColor).cidx = 0 := rfl
@[simp] theorem State.firstColor_cur (s : State) : (s.firstColor).cur = s.cur := rfl
@[simp] theorem State.firstColor_x (s : State) : (s.firstColor).x = s.x := rfl
@[simp] theorem State.firstColor_lastByte (s : State) : (s.firstColor).lastByte = s.lastByte := rfl
@[simp] theorem State.firstColor_runCount (s : State) : (s.firstColor).runCount = s.runCount := rfl
@[simp] theorem State.firstColor_clist (s : State) : (s.firstColor).clist = s.colors s.strip.toNat := rfl
@[simp] theorem State.firstColor_pix (s : State) : (s.firstColor).pix = s.pix := rfl
@[simp] theorem State.firstColor_oq (s : State) : (s.firstColor).oq = s.oq := rfl
@[simp] theorem State.firstColor_rsp (s : State) : (s.firstColor).rsp = s.rsp := rfl
@[simp] theorem State.firstColor_out (s : State) : (s.firstColor).out = s.out := rfl
@[simp] theorem State.firstColor_params (s : State) : (s.firstColor).params = s.params := rfl
@[simp] theorem State.firstColor_env (s : State) : (s.firstColor).env = s.env := rfl
@[simp] theorem State.firstColor_draws (s : State) : (s.firstColor).draws = s.draws := rfl

/-! ### `State.firstColumn` -/

@[simp] theorem State.firstColumn_valid (s : State) (c : Color) : (s.firstColumn c).valid = s.valid := rfl
@[simp] theorem State.firstColumn_width (s : State) (c : Color) : (s.firstColumn c).width = s.width := rfl
@[simp] theorem State.firstColumn_height (s : State) (c : Color) : (s.firstColumn c).height = s.height := rfl
@[simp] theorem State.firstColumn_phase (s : State) (c : Color) : (s.firstColumn c).phase = .column := rfl
@[simp] theorem State.firstColumn_strip (s : State) (c : Color) : (s.firstColumn c).strip = s.strip := rfl
@[simp] theorem State.firstColumn_cidx (s : State) (c : Color) : (s.firstColumn c).cidx = s.cidx := rfl
@[simp] theorem State.firstColumn_cur (s : State) (c : Color) : (s.firstColumn c).cur = c := rfl
@[simp] theorem State.firstColumn_x (s : State) (c : Color) : (s.firstColumn c).x = 0 := rfl
@[simp] theorem State.firstColumn_lastByte (s : State) (c : Color) : (s.firstColumn c).lastByte = 0 := rfl
@[simp] theorem State.firstColumn_runCount (s : State) (c : Color) : (s.firstColumn c).runCount = 0 := rfl
@[simp] theorem State.firstColumn_clist (s : State) (c : Color) : (s.firstColumn c).clist = s.clist := rfl
@[simp] theorem State.firstColumn_pix (s : State) (c : Color) : (s.firstColumn c).pix = s.pix := rfl
@[simp] theorem State.firstColumn_oq (s : State) (c : Color) : (s.firstColumn c).oq = s.oq := rfl
@[simp] theorem State.firstColumn_rsp (s : State) (c : Color) : (s.firstColumn c).rsp = s.rsp := rfl
@[simp] theorem State.firstColumn_out (s : State) (c : Color) : (s.firstColumn c).out = s.out := rfl
@[simp] theorem State.firstColumn_params (s : State) (c : Color) : (s.firstColumn c).params = s.params := rfl
@[simp] theorem State.firstColumn_env (s : State) (c : Color) : (s.firstColumn c).env = s.env := rfl
@[simp] theorem State.firstColumn_draws (s : State) (c : Color) : (s.firstColumn c).draws = s.draws := rfl

/-! ### `State.nextColumn` -/

@[simp] theorem State.nextColumn_valid (s : State) : (s.nextColumn).valid = s.valid := rfl
@[simp] theorem State.nextColumn_width (s : State) : (s.nextColumn).width = s.width := rfl
@[simp] theorem State.nextColumn_height (s : State) : (s.nextColumn).height = s.height := rfl
@[simp] theorem State.nextColumn_phase (s : State) : (s.nextColumn).phase = s.phase := rfl
@[simp] theorem State.nextColumn_strip (s : State) : (s.nextColumn).strip = s.strip := rfl
@[simp] theorem State.nextColumn_cidx (s : State) : (s.nextColumn).cidx = s.cidx := rfl
@[simp] theorem State.nextColumn_cur (s : State) : (s.nextColumn).cur = s.cur := rfl
@[simp] theorem State.nextColumn_x (s : State) : (s.nextColumn).x = s.x + 1 := rfl
@[simp] theorem State.nextColumn_lastByte (s : State) : (s.nextColumn).lastByte = s.lastByte := rfl
@[simp] theorem State.nextColumn_runCount (s : State) : (s.nextColumn).runCount = s.runCount := rfl
@[simp] theorem State.nextColumn_clist (s : State) : (s.nextColumn).clist = s.clist := rfl
@[simp] theorem State.nextColumn_pix (s : State) : (s.nextColumn).pix = s.pix := rfl
@[simp] theorem State.nextColumn_oq (s : State) : (s.nextColumn).oq = s.oq := rfl
@[simp] theorem State.nextColumn_rsp (s : State) : (s.nextColumn).rsp = s.rsp := rfl
@[simp] theorem State.nextColumn_out (s : State) : (s.nextColumn).out = s.out := rfl
@[simp] theorem State.nextColumn_params (s : State) : (s.nextColumn).params = s.params := rfl
@[simp] theorem State.nextColumn_env (s : State) : (s.nextColumn).env = s.env := rfl
@[simp] theorem State.nextColumn_draws (s : State) : (s.nextColumn).draws = s.draws := rfl

/-! ### `State.nextColor` -/

@[simp] theorem State.nextColor_valid (s : State) : (s.nextColor).valid = s.valid := rfl
@[simp] theorem State.nextColor_width (s : State) : (s.nextColor).width = s.width := rfl
@[simp] theorem State.nextColor_height (s : State) : (s.nextColor).height = s.height := rfl
@[simp] theorem State.nextColor_phase (s : State) : (s.nextColor).phase = .colorBegin := rfl
@[simp] theorem State.nextColor_strip (s : State) : (s.nextColor).strip = s.strip := rfl
@[simp] theorem State.nextColor_cidx (s : State) : (s.nextColor).cidx = s.cidx + 1 := rfl
@[simp] theorem State.nextColor_cur (s : State) : (s.nextColor).cur = s.cur := rfl
@[simp] theorem State.nextColor_x (s : State) : (s.nextColor).x = s.x := rfl
@[simp] theorem State.nextColor_lastByte (s : State) : (s.nextColor).lastByte = s.lastByte := rfl
@[simp] theorem State.nextColor_runCount (s : State) : (s.nextColor).runCount = s.runCount := rfl
@[simp] theorem State.nextColor_clist (s : State) : (s.nextColor).clist = s.clist := rfl
@[simp] theorem State.nextColor_pix (s : State) : (s.nextColor).pix = s.pix := rfl
@[simp] theorem State.nextColor_oq (s : State) : (s.nextColor).oq = s.oq := rfl
@[simp] theorem State.nextColor_rsp (s : State) : (s.nextColor).rsp = s.rsp := rfl
@[simp] theorem State.nextColor_out (s : State) : (s.nextColor).out = s.out := rfl
@[simp] theorem State.nextColor_params (s : State) : (s.nextColor).params = s.params := rfl
@[simp] theorem State.nextColor_env (s : State) : (s.nextColor).env = s.env := rfl
@[simp] theorem State.nextColor_draws (s : State) : (s.nextColor).draws = s.draws := rfl

/-! ### `State.nextStrip` -/

@[simp] theorem State.nextStrip_valid (s : State) : (s.nextStrip).valid = s.valid := rfl
@[simp] theorem State.nextStrip_width (s : State) : (s.nextStrip).width = s.width := rfl
@[simp] theorem State.nextStrip_height (s : State) : (s.nextStrip).height = s.height := rfl
@[simp] theorem State.nextStrip_phase (s : State) : (s.nextStrip).phase = .stripBegin := rfl
@[simp] theorem State.nextStrip_strip (s : State) : (s.nextStrip).strip = s.strip + 1 := rfl
@[simp] theorem State.nextStrip_cidx (s : State) : (s.nextStrip).cidx = s.cidx := rfl
@[simp] theorem State.nextStrip_cur (s : State) : (s.nextStrip).cur = s.cur := rfl
@[simp] theorem State.nextStrip_x (s : State) : (s.nextStrip).x = s.x := rfl
@[simp] theorem State.nextStrip_lastByte (s : State) : (s.nextStrip).lastByte = s.lastByte := rfl
@[simp] theorem State.nextStrip_runCount (s : State) : (s.nextStrip).runCount = s.runCount := rfl
@[simp] theorem State.nextStrip_clist (s : State) : (s.nextStrip).clist = s.clist := rfl
@[simp] theorem State.nextStrip_pix (s : State) : (s.nextStrip).pix = s.pix := rfl
@[simp] theorem State.nextStrip_oq (s : State) : (s.nextStrip).oq = s.oq := rfl
@[simp] theorem State.nextStrip_rsp (s : State) : (s.nextStrip).rsp = s.rsp := rfl
@[simp] theorem State.nextStrip_out (s : State) : (s.nextStrip).out = s.out := rfl
@[simp] theorem State.nextStrip_params (s : State) : (s.nextStrip).params = s.params := rfl
@[simp] theorem State.nextStrip_env (s : State) : (s.nextStrip).env = s.env := rfl
@[simp] theorem State.nextStrip_draws (s : State) : (s.nextStrip).draws = s.draws := rfl

/-! ### `State.passTake` -/

@[simp] theorem State.passTake_valid (s : State) : (s.passTake).valid = s.valid := rfl
@[simp] theorem State.passTake_width (s : State) : (s.passTake).width = s.width := rfl
@[simp] theorem State.passTake_height (s : State) : (s.passTake).height = s.height := rfl
@[simp] theorem State.passTake_phase (s : State) : (s.passTake).phase = s.phase := rfl
@[simp] theorem State.passTake_strip (s : State) : (s.passTake).strip = s.strip := rfl
@[simp] theorem State.passTake_cidx (s : State) : (s.passTake).cidx = s.cidx := rfl
@[simp] theorem State.passTake_cur (s : State) : (s.passTake).cur = s.cur := rfl
@[simp] theorem State.passTake_x (s : State) : (s.passTake).x = s.x := rfl
@[simp] theorem State.passTake_lastByte (s : State) : (s.passTake).lastByte = s.lastByte := rfl
@[simp] theorem State.passTake_runCount (s : State) : (s.passTake).runCount = s.runCount := rfl
@[simp] theorem State.passTake_clist (s : State) : (s.passTake).clist = s.clist := rfl
@[simp] theorem State.passTake_pix (s : State) : (s.passTake).pix = s.pix := rfl
@[simp] theorem State.passTake_oq (s : State) : (s.passTake).oq = s.oq := rfl
@[simp] theorem State.passTake_rsp (s : State) : (s.passTake).rsp = s.rsp := rfl
@[simp] theorem State.passTake_out (s : State) : (s.passTake).out = s.out := rfl
@[simp] theorem State.passTake_params (s : State) : (s.passTake).params = s.params := rfl
@[simp] theorem State.passTake_env (s : State) : (s.passTake).env = { s.env with takes := s.env.takes.tail } := rfl
@[simp] theorem State.passTake_draws (s : State) : (s.passTake).draws = s.draws := rfl

/-! ### `State.handOver` -/

@[simp] theorem State.handOver_valid (s : State) : (s.handOver).valid = s.valid := rfl
@[simp] theorem State.handOver_width (s : State) : (s.handOver).width = s.width := rfl
@[simp] theorem State.handOver_height (s : State) : (s.handOver).height = s.height := rfl
@[simp] theorem State.handOver_phase (s : State) : (s.handOver).phase = s.phase := rfl
@[simp] theorem State.handOver_strip (s : State) : (s.handOver).strip = s.strip := rfl
@[simp] theorem State.handOver_cidx (s : State) : (s.handOver).cidx = s.cidx := rfl
@[simp] theorem State.handOver_cur (s : State) : (s.handOver).cur = s.cur := rfl
@[simp] theorem State.handOver_x (s : State) : (s.handOver).x = s.x := rfl
@[simp] theorem State.handOver_lastByte (s : State) : (s.handOver).lastByte = s.lastByte := rfl
@[simp] theorem State.handOver_runCount (s : State) : (s.handOver).runCount = s.runCount := rfl
@[simp] theorem State.handOver_clist (s : State) : (s.handOver).clist = s.clist := rfl
@[simp] theorem State.handOver_pix (s : State) : (s.handOver).pix = s.pix := rfl
@[simp] theorem State.handOver_oq (s : State) : (s.handOver).oq = s.oq := rfl
@[simp] theorem State.handOver_rsp (s : State) : (s.handOver).rsp = none := rfl
@[simp] theorem State.handOver_out (s : State) : (s.handOver).out = s.out := rfl
@[simp] theorem State.handOver_params (s : State) : (s.handOver).params = s.params := rfl
@[simp] theorem State.handOver_env (s : State) :
    (s.handOver).env = { s.env with received := s.env.received ++ s.rsp.toList } := rfl
@[simp] theorem State.handOver_draws (s : State) : (s.handOver).draws = s.draws := rfl

/-! ### `State.passAnswer` -/

@[simp] theorem State.passAnswer_valid (s : State) : (s.passAnswer).valid = s.valid := rfl
@[simp] theorem State.passAnswer_width (s : State) : (s.passAnswer).width = s.width := rfl
@[simp] theorem State.passAnswer_height (s : State) : (s.passAnswer).height = s.height := rfl
@[simp] theorem State.passAnswer_phase (s : State) : (s.passAnswer).phase = s.phase := rfl
@[simp] theorem State.passAnswer_strip (s : State) : (s.passAnswer).strip = s.strip := rfl
@[simp] theorem State.passAnswer_cidx (s : State) : (s.passAnswer).cidx = s.cidx := rfl
@[simp] theorem State.passAnswer_cur (s : State) : (s.passAnswer).cur = s.cur := rfl
@[simp] theorem State.passAnswer_x (s : State) : (s.passAnswer).x = s.x := rfl
@[simp] theorem State.passAnswer_lastByte (s : State) : (s.passAnswer).lastByte = s.lastByte := rfl
@[simp] theorem State.passAnswer_runCount (s : State) : (s.passAnswer).runCount = s.runCount := rfl
@[simp] theorem State.passAnswer_clist (s : State) : (s.passAnswer).clist = s.clist := rfl
@[simp] theorem State.passAnswer_pix (s : State) : (s.passAnswer).pix = s.pix := rfl
@[simp] theorem State.passAnswer_oq (s : State) : (s.passAnswer).oq = s.oq := rfl
@[simp] theorem State.passAnswer_rsp (s : State) : (s.passAnswer).rsp = s.rsp := rfl
@[simp] theorem State.passAnswer_out (s : State) : (s.passAnswer).out = s.out := rfl
@[simp] theorem State.passAnswer_params (s : State) : (s.passAnswer).params = s.params := rfl
@[simp] theorem State.passAnswer_env (s : State) :
    (s.passAnswer).env = { s.env with answers := s.env.answers.tail } := rfl
@[simp] theorem State.passAnswer_draws (s : State) : (s.passAnswer).draws = s.draws := rfl

/-! ### `State.onOffer` -/

@[simp] theorem State.onOffer_valid (s : State) (b : Byte) : (s.onOffer b).valid = s.valid := rfl
@[simp] theorem State.onOffer_width (s : State) (b : Byte) : (s.onOffer b).width = s.width := rfl
@[simp] theorem State.onOffer_height (s : State) (b : Byte) : (s.onOffer b).height = s.height := rfl
@[simp] theorem State.onOffer_phase (s : State) (b : Byte) : (s.onOffer b).phase = s.phase := rfl
@[simp] theorem State.onOffer_strip (s : State) (b : Byte) : (s.onOffer b).strip = s.strip := rfl
@[simp] theorem State.onOffer_cidx (s : State) (b : Byte) : (s.onOffer b).cidx = s.cidx := rfl
@[simp] theorem State.onOffer_cur (s : State) (b : Byte) : (s.onOffer b).cur = s.cur := rfl
@[simp] theorem State.onOffer_x (s : State) (b : Byte) : (s.onOffer b).x = s.x := rfl
@[simp] theorem State.onOffer_lastByte (s : State) (b : Byte) : (s.onOffer b).lastByte = s.lastByte := rfl
@[simp] theorem State.onOffer_runCount (s : State) (b : Byte) : (s.onOffer b).runCount = s.runCount := rfl
@[simp] theorem State.onOffer_clist (s : State) (b : Byte) : (s.onOffer b).clist = s.clist := rfl
@[simp] theorem State.onOffer_pix (s : State) (b : Byte) : (s.onOffer b).pix = s.pix := rfl
@[simp] theorem State.onOffer_oq (s : State) (b : Byte) : (s.onOffer b).oq = s.oq := rfl
@[simp] theorem State.onOffer_rsp (s : State) (b : Byte) : (s.onOffer b).rsp = s.rsp := rfl
@[simp] theorem State.onOffer_out (s : State) (b : Byte) : (s.onOffer b).out = some b := rfl
@[simp] theorem State.onOffer_params (s : State) (b : Byte) : (s.onOffer b).params = s.params := rfl
@[simp] theorem State.onOffer_env (s : State) (b : Byte) : (s.onOffer b).env = s.env := rfl
@[simp] theorem State.onOffer_draws (s : State) (b : Byte) : (s.onOffer b).draws = s.draws := rfl

/-! ### `State.resetOf` -/

@[simp] theorem State.resetOf_toBlockState (p : Params) (e : Env) :
    (State.resetOf p e).toBlockState = BlockState.reset := rfl
@[simp] theorem State.resetOf_params (p : Params) (e : Env) : (State.resetOf p e).params = p := rfl
@[simp] theorem State.resetOf_env (p : Params) (e : Env) : (State.resetOf p e).env = e := rfl
@[simp] theorem State.resetOf_draws (p : Params) (e : Env) : (State.resetOf p e).draws = 0 := rfl

/-! ### Using an input leaves the machine state of the block (10_state.md R24) -/

@[simp] theorem State.passRst_toBlockState (s : State) : s.passRst.toBlockState = s.toBlockState := rfl
@[simp] theorem State.passTake_toBlockState (s : State) : s.passTake.toBlockState = s.toBlockState := rfl
@[simp] theorem State.passCmd_toBlockState (s : State) : s.passCmd.toBlockState = s.toBlockState := rfl
@[simp] theorem State.passAnswer_toBlockState (s : State) : s.passAnswer.toBlockState = s.toBlockState := rfl
@[simp] theorem State.passSched_toBlockState (s : State) : s.passSched.toBlockState = s.toBlockState := rfl

end Sys2Proof.Machine
end

