-- ==== Sys2Proof/Laws/Step.lean ====
section
/-! SUPPORT. What a step can do, said once: one inversion lemma per function of the machine's cycle. -/

namespace Sys2Proof.Machine

/-- With nothing to read, reading the level of `rst` changes nothing. -/
theorem State.passRst_of_nil {s : State} (h : s.env.rst = []) : s.passRst = s := by
  obtain ⟨⟩ := s; rename_i env _; obtain ⟨⟩ := env; simp_all [State.passRst]

theorem step_of_rstHigh {s : State} (h : s.rstHigh = true) : step s = .next s.passRst.takeReset := by
  simp [step, cycleOrReset, h]

theorem step_of_rstLow {s : State} (h : s.rstHigh = false) : step s = cycle s.passRst := by
  simp [step, cycleOrReset, h]

/-- With no more levels of `rst` to come, a step is a cycle. -/
theorem step_of_rst_nil {s : State} (h : s.env.rst = []) : step s = cycle s := by
  rw [step_of_rstLow (by simp [State.rstHigh, h]), State.passRst_of_nil h]

theorem cycle_of_busy {s : State} (h : s.busy = true) : cycle s = runBusy s := by simp [cycle, h]

theorem cycle_of_rsp {s : State} (h : s.busy = false) (hr : s.rsp ≠ none) : cycle s = .next s.hostTakes := by
  cases hs : s.rsp with
  | none => exact absurd hs hr
  | some r => simp [cycle, h, hs]

theorem cycle_of_open {s : State} (h : s.busy = false) (hr : s.rsp = none) : cycle s = commandPort s := by
  simp [cycle, h, hr]

/-- What the command port can do. -/
theorem commandPort_cases (s : State) :
    (s.offeredWord = none ∧ commandPort s = .next s.passCmd) ∨
    (∃ w e, s.offeredWord = some w ∧ decode w = .error e ∧ commandPort s = .next s.passCmd.illegalWord) ∨
    (∃ w i, s.offeredWord = some w ∧ decode w = .ok i ∧ commandPort s = exec i s.passCmd) := by
  unfold commandPort
  split
  · exact .inl ⟨‹_›, rfl⟩
  · rename_i w hw
    cases hd : decode w with
    | error e => exact .inr (.inl ⟨w, e, hw, hd, rfl⟩)
    | ok i => exact .inr (.inr ⟨w, i, hw, hd, rfl⟩)

/-- What one step of a running ENCODE can do: a sequencer step, or an offer to the sink. -/
theorem runBusy_cases (s : State) :
    (s.oq = [] ∧ runBusy s = seqStep s) ∨
    (∃ b rest, s.oq = b :: rest ∧ runBusy s = .next (s.drain b rest)) ∨
    (∃ b rest, s.oq = b :: rest ∧ runBusy s = .next (s.passSched.drain b rest)) ∨
    (∃ b rest, s.oq = b :: rest ∧ s.out = none ∧ s.seqEnabled = true ∧ runBusy s = seqStep s.passSched) := by
  unfold runBusy
  split
  · exact .inl ⟨‹_›, rfl⟩
  · rename_i b rest hq
    split
    · exact .inr (.inl ⟨b, rest, hq, rfl⟩)
    · rename_i ho
      split
      · exact .inr (.inl ⟨b, rest, hq, rfl⟩)
      · rename_i he
        split
        · exact .inr (.inr (.inr ⟨b, rest, hq, by simpa using ho, by simpa using he, rfl⟩))
        · exact .inr (.inr (.inl ⟨b, rest, hq, rfl⟩))

/-- What an offer to the sink can do. -/
theorem State.drain_cases (s : State) (b : Byte) (rest : List Byte) :
    (s.env.answers.headD none = none ∧ s.drain b rest = s.passAnswer.onOffer b) ∨
    (s.env.answers.headD none = some .accept ∧ s.drain b rest = s.passAnswer.accepted b rest) ∨
    (s.env.answers.headD none = some .fail ∧ s.drain b rest = s.passAnswer.sinkFailed) := by
  unfold State.drain
  split <;> simp_all

/-- What the host's side of the response port can do. -/
theorem State.hostTakes_cases (s : State) : s.hostTakes = s.passTake ∨ s.hostTakes = s.passTake.handOver := by
  unfold State.hostTakes
  split
  · exact .inr rfl
  · exact .inl rfl

/-- The head of a list of optional answers is an answer when the list begins with it. -/
theorem headD_none_eq_some {α : Type} {l : List (Option α)} {a : α} :
    l.headD none = some a ↔ l.head? = some (some a) := by
  cases l <;> simp

/-- Every command of the four answers a next state. -/
theorem exec_next (i : Instr) (s : State) : ∃ t, exec i s = .next t := by
  cases i <;> simp only [exec, execInit, execSet, execGet, execEncode] <;> (repeat' split) <;> exact ⟨_, rfl⟩

/-! ### Runs -/

theorem run_zero (s : State) : Host.Core.run Sys2Proof.core 0 s = .next s := rfl

/-- A run whose first step answers a next state goes on from it. -/
theorem run_succ {s t : State} (k : Nat) (h : step s = .next t) :
    Host.Core.run Sys2Proof.core (k + 1) s = Host.Core.run Sys2Proof.core k t := by
  have g : ∀ (M : Host.Core) (a b : M.State), M.step a = .next b → M.run (k + 1) a = M.run k b := by
    intro M a b e; simp only [Host.Core.run, e]
  exact g Sys2Proof.core s t h

/-- A run cut in two. -/
theorem run_add {s t : State} (j k : Nat) (h : Host.Core.run Sys2Proof.core j s = .next t) :
    Host.Core.run Sys2Proof.core (j + k) s = Host.Core.run Sys2Proof.core k t := by
  have g : ∀ (M : Host.Core) (a b : M.State), M.run j a = .next b → M.run (j + k) a = M.run k b := by
    intro M
    clear h
    induction j with
    | zero => intro a b e; rw [Nat.zero_add]; cases e; rfl
    | succ j ih =>
      intro a b e
      rw [Nat.add_right_comm]
      simp only [Host.Core.run] at e ⊢
      cases hs : M.step a with
      | next c => rw [hs] at e; simp only at e ⊢; exact ih c b e
      | fault r => rw [hs] at e; cases e
      | refused r => rw [hs] at e; cases e
  exact g Sys2Proof.core s t h

end Sys2Proof.Machine
end

