-- ==== Sys2Proof/Tests/Slice0.lean ====
section
/-! SUPPORT. Small tests, their expected results from spec/ (30_encoding.md, 95_test_vectors.md), and for every statement
with hypotheses a named witness that meets them. -/

namespace Sys2Proof.Tests

open Sys2Proof Sys2Proof.Machine

/-! ### Decoding: words written out from 30_encoding.md R46, R47 -/

/-- `INIT 1, 6`, bit by bit: OP 0001, RSV 0, A = 1, B = 6, C = 0. -/
theorem test_decode_init : decode
    0b0001000000000000000000000000000100000000000001100000000000000000 = .ok (.init 1 6) := by decide

/-- `SET 1, 5, 300` (V8), bit by bit: OP 0010, A = 1, B = 5, C = 300. -/
theorem test_decode_set : decode
    0b0010000000000000000000000000000100000000000001010000000100101100 = .ok (.set 1 5 300) := by decide

/-- `GET 2, 11`, bit by bit: OP 0011, A = 2, B = 11, C = 0. -/
theorem test_decode_get : decode
    0b0011000000000000000000000000001000000000000010110000000000000000 = .ok (.get 2 11) := by decide

/-- `ENCODE`, bit by bit: OP 0100, all else 0. -/
theorem test_decode_encode : decode
    0b0100000000000000000000000000000000000000000000000000000000000000 = .ok .encode := by decide

/-- The illegal words of 95_test_vectors.md section 2.1, with the check each fails. -/
theorem test_decode_illegal :
    decode 0x0000000000000000 = .error .reservedOp ∧ decode 0x5000000000000000 = .error .reservedOp ∧
    decode 0xF000000000000000 = .error .reservedOp ∧ decode 0x4001000000000000 = .error .reservedField ∧
    decode 0x2800000000000000 = .error .reservedField ∧ decode 0x4000000000000001 = .error .operandNotZero ∧
    decode 0x4000000100000000 = .error .operandNotZero ∧ decode 0x3000000000000001 = .error .operandNotZero ∧
    decode 0x1000000100060001 = .error .operandNotZero := by decide

/-- The words of P3 and P5, encoded. -/
theorem test_encode_words :
    encode (.init 7 12) = 0x10000007000C0000 ∧ encode (.set 6 11 300) = 0x20000006000B012C ∧
    encode (.get 6 11) = 0x30000006000B0000 ∧ encode .encode = 0x4000000000000000 := by decide

/-- The host's reading of the table's words. -/
theorem test_decodeTableWord :
    decodeTableWord 64 0x1000000100060000 = some (.init 1 6) ∧
    decodeTableWord 64 0x4000000000000000 = some .encode ∧ decodeTableWord 64 0 = none := by decide

/-! ### WellFormed: an ill-formed term for each check (R49) -/

theorem test_illformed_op : (CmdFields.mk 5 0 0 0 0).check = some .reservedOp := by decide
theorem test_illformed_rsv : (CmdFields.mk 2 0x800 0 0 0).check = some .reservedField := by decide
theorem test_illformed_init_c : (CmdFields.mk 1 0 1 6 1).check = some .operandNotZero := by decide
theorem test_illformed_get_c : (CmdFields.mk 3 0 0 0 1).check = some .operandNotZero := by decide
theorem test_illformed_encode_abc :
    (CmdFields.mk 4 0 1 0 0).check = some .operandNotZero ∧ (CmdFields.mk 4 0 0 1 0).check = some .operandNotZero ∧
    (CmdFields.mk 4 0 0 0 1).check = some .operandNotZero := by decide
theorem test_wellformed_set_any_c : (CmdFields.mk 2 0 1 5 0xFFFF).wellFormed = true := by decide

/-! ### States for the tests -/

theorem none_ne_some {α : Type} {a : α} {p : Prop} (h : none = some a) : p := nomatch h

/-- The state that a step answers, if it does. -/
def nextOf (o : Host.Outcome State Fault Refusal) : Option State :=
  match o with
  | .next t => some t
  | .fault _ => none
  | .refused _ => none

/-- After reset, an image of `w` columns and `h` rows with the given cells. -/
def imageState (w h : Dim) (pix : Memory) : State :=
  { State.reset with width := w, height := h, valid := true, pix := pix }

/-- The state with the given words on the command port. -/
def State.offering (s : State) (ws : List CmdWord) : State :=
  { s with env := { s.env with cmds := ws.map some } }

/-- The state with the given answers of the sink to come. -/
def State.answering (s : State) (as : List (Option SinkAnswer)) : State :=
  { s with env := { s.env with answers := as } }

/-- The source's discovery fixture (S3): a 2 x 6 image with rows `[1,2]`, `[2,1]`, `[1,1]`, `[3,3]`, `[1,1]`, `[1,1]`. -/
def fixture : State := imageState 2 6
  [(0, 1), (1, 2), (2, 2), (3, 1), (4, 1), (5, 1), (6, 3), (7, 3), (8, 1), (9, 1), (10, 1), (11, 1)]

/-- The source's example (S1): a 1 x 6 image, every pixel 5. -/
def column5 : State := imageState 1 6 [(0, 5), (1, 5), (2, 5), (3, 5), (4, 5), (5, 5)]

/-- Step 6 of the worked example of 44_encode.md section 6: `x == width`, the pending run is `(117, 1)`. -/
def fixtureColumn : State :=
  { fixture with
    phase := .column, strip := 0, clist := [1, 2, 3], cidx := 0, cur := 1, x := 2
    lastByte := 117, runCount := 1, oq := [] }

/-! ### Steps: at most two an instruction -/

/-- V1: `INIT 1, 6` after reset. -/
theorem test_init_ok : (nextOf (step (State.reset.withFetchWord 64 0x1000000100060000))).map
    (fun t => (t.rsp, t.valid, t.width, t.height, t.pixRead 0 5)) = some (some 0x00000000, true, 1, 6, 0) := by decide

/-- V6: with `PIXCAP = 60`, `INIT 11, 6` is `ERR_CAPACITY`, and `INIT 10, 6` is `OK`. -/
theorem test_init_capacity :
    (nextOf (exec (.init 11 6) { State.reset with params := ⟨some 60, 0⟩ })).map (fun t => (t.rsp, t.valid)) =
      some (some 0x00050000, false) ∧
    (nextOf (exec (.init 10 6) { State.reset with params := ⟨some 60, 0⟩ })).map (fun t => (t.rsp, t.valid)) =
      some (some 0x00000000, true) := by decide

/-- V8: `SET 1, 5, 300` on a 2 x 12 image writes the cell at address 11. -/
theorem test_set_ok : (nextOf (step ((imageState 2 12 []).withFetchWord 64 0x200000010005012C))).map
    (fun t => (t.rsp, t.pix)) = some (some 0x00000000, [(11, 300)]) := by decide

/-- V10: `SET 2, 0, 1` on a 2 x 12 image is `ERR_BOUNDS`. -/
theorem test_set_bounds : (nextOf (step ((imageState 2 12 []).withFetchWord 64 0x2000000200000001))).map
    (fun t => (t.rsp, t.pix)) = some (some 0x00030000, []) := by decide

/-- V8: `GET 1, 5` reads 300. -/
theorem test_get_ok : (nextOf (step ((imageState 2 12 [(11, 300)]).withFetchWord 64 0x3000000100050000))).map
    (fun t => t.rsp) = some (some 0x0000012C) := by decide

/-- V13: `GET 0, 0` after reset is `ERR_NOIMAGE`. -/
theorem test_get_noimage : (nextOf (step (State.reset.withFetchWord 64 0x3000000000000000))).map (fun t => t.rsp) =
    some (some 0x00040000) := by decide

/-- V14: `ENCODE` after reset is `ERR_NOIMAGE`. -/
theorem test_encode_noimage : (nextOf (step (State.reset.withFetchWord 64 0x4000000000000000))).map
    (fun t => (t.rsp, t.busy)) = some (some 0x00040000, false) := by decide

/-- Step 6 of 44_encode.md section 6: `u$` is pushed, `cidx` is 1, the phase is `COLOR_BEGIN`. -/
theorem test_encode_column_end : (nextOf (step fixtureColumn)).map (fun t => (t.oq, t.cidx, t.phase)) =
    some ([0x75, 0x24], 1, .colorBegin) := by decide

/-- 30_encoding.md R49: an illegal word is answered `0x00060000`, also before any image. -/
theorem test_illegal_word : (nextOf (step (State.reset.withFetchWord 64 0x3000000000000001))).map (fun t => t.rsp) =
    some (some 0x00060000) := by decide

/-! ### The functions of the encode pass -/

/-- V22, V18, V17: `@AABBB` gives `@AA!3B`. -/
theorem test_rle : rle [0x40, 0x41, 0x41, 0x42, 0x42, 0x42] = [0x40, 0x41, 0x41, 0x21, 0x33, 0x42] ∧
    rle [0x7E, 0x7E, 0x7E] = [0x21, 0x33, 0x7E] ∧ rle [0x7E, 0x7E] = [0x7E, 0x7E] := by decide

/-- The `dec` and `flush` vectors of 95_test_vectors.md section 2.2. -/
theorem test_dec_flush : dec 0 = [0x30] ∧ dec 300 = [0x33, 0x30, 0x30] ∧
    flush 63 12 = [33, 49, 50, 63] ∧ flush 0 0 = [] := by decide

/-- V29, V34: the top row is bit 0, the bottom row bit 5. -/
theorem test_crb : (imageState 1 6 [(0, 9)]).crb 0 9 0 = 64 ∧ (imageState 1 6 [(5, 9)]).crb 0 9 0 = 95 ∧
    (imageState 1 6 [(0, 9)]).crb 0 0 0 = 125 := by decide

/-- V36: rows outermost: `[4, 9, 7]`. -/
theorem test_colors : (imageState 2 6 [(0, 4), (1, 9), (2, 7), (3, 4), (4, 4), (5, 4), (6, 4), (7, 4), (8, 4), (9, 4),
    (10, 4), (11, 4)]).colors 0 = [4, 9, 7] := by decide

/-- S1 and P2: `#5~$-` and `#1tu$#2A@$#3GG$-`. -/
theorem test_encodeImage : column5.encodeImage = [0x23, 0x35, 0x7E, 0x24, 0x2D] ∧
    fixture.encodeImage =
      [0x23, 0x31, 0x74, 0x75, 0x24, 0x23, 0x32, 0x41, 0x40, 0x24, 0x23, 0x33, 0x47, 0x47, 0x24, 0x2D] := by decide

/-! ### Witnesses: encodings and image commands -/

theorem test_witness_EncodeOfDecode : decode 0x20000006000B012C = .ok (.set 6 11 300) := by decide

theorem test_witness_IllegalWordAnswered :
    let s := State.offering fixture [0x4001000000000000]
    s.rstHigh = false ∧ s.phase = .idle ∧ s.rsp = none ∧
      s.env.cmds.head? = some (some (0x4001000000000000 : CmdWord)) ∧ decode 0x4001000000000000 = .error .reservedField := by
  decide

theorem test_witness_StepRunsDecodedWord :
    let s := State.offering fixture [0x3000000100050000]
    s.rstHigh = false ∧ s.phase = .idle ∧ s.rsp = none ∧
      s.env.cmds.head? = some (some (0x3000000100050000 : CmdWord)) ∧ decode 0x3000000100050000 = .ok (.get 1 5) := by
  decide

/-- One state for each of the three cases, the last two at the boundary of the capacity. -/
theorem test_witness_InitConstructsImage :
    let s : State := { State.reset with params := ⟨some 60, 0⟩ }
    (7 : Dim).toNat % 6 ≠ 0 ∧
    ((6 : Dim).toNat % 6 = 0 ∧ ∃ cap, s.params.pixcap = some cap ∧ cap < (11 : Dim).toNat * (6 : Dim).toNat) ∧
    ((6 : Dim).toNat % 6 = 0 ∧ ∀ cap, s.params.pixcap = some cap → (10 : Dim).toNat * (6 : Dim).toNat ≤ cap) :=
  ⟨by decide, ⟨by decide, 60, rfl, by decide⟩, by decide, fun cap h => by cases h; decide⟩

/-- No image; a coordinate just out of range, each way; the last pixel. -/
theorem test_witness_SetWritesOneCell :
    Memory.wf State.reset.pix ∧ State.reset.valid = false ∧ Memory.wf fixture.pix ∧ fixture.valid = true ∧
    fixture.width.toNat ≤ (2 : Dim).toNat ∧ fixture.height.toNat ≤ (6 : Dim).toNat ∧
    (1 : Dim).toNat < fixture.width.toNat ∧ (5 : Dim).toNat < fixture.height.toNat := by decide

theorem test_witness_GetReadsOneCell :
    State.reset.valid = false ∧ fixture.valid = true ∧
    fixture.width.toNat ≤ (2 : Dim).toNat ∧ fixture.height.toNat ≤ (6 : Dim).toNat ∧
    (1 : Dim).toNat < fixture.width.toNat ∧ (5 : Dim).toNat < fixture.height.toNat := by decide

/-- The state with the given words on the command port, and a host that takes a response at once. -/
def State.commanding (s : State) (ws : List CmdWord) : State :=
  { s with env := { Env.quiet with cmds := ws.map some, takes := [true] } }

/-- While a response waits no word is taken, so the step keeps every pixel. -/
theorem keepsPixel_of_rsp {s : State} (x y : Dim) (h : s.rstHigh = false) (hr : s.rsp ≠ none) : s.keepsPixel x y :=
  ⟨h, fun _ hi => absurd hi.2.2.1 hr⟩

/-- One step of the run from `t` to `u`: the host takes the response that waits. -/
theorem runsKeeping_handOver {t u : State} (x y : Dim) (h : t.rstHigh = false) (hr : t.rsp ≠ none)
    (hs : step t = .next u) : t.runsKeeping x y 1 u := by
  refine ⟨by rw [run_succ 0 hs, run_zero], fun j hj v hv => ?_⟩
  obtain rfl : j = 0 := by omega
  rw [run_zero] at hv
  cases hv
  exact keepsPixel_of_rsp x y h hr

/-- For the commands in a row, an ENCODE's start among them; and for the steps, `SET 1, 5, 300`, the taking of its
response, and `GET 1, 5` (V8). -/
theorem test_witness_GetAfterSet :
    let s := State.commanding fixture [0x200000010005012C, 0x3000000100050000]
    Memory.wf s.pix ∧ s.valid = true ∧ (1 : Dim).toNat < s.width.toNat ∧ (5 : Dim).toNat < s.height.toNat ∧
    (∀ i ∈ [Instr.set 0 5 7, .get 1 5, .set 9 9 9, .encode], leavesPixel 1 5 i = true) ∧
    s.takesCommand (.set 1 5 300) ∧
    ∃ t, step s = .next t ∧ ∃ u, t.runsKeeping 1 5 1 u ∧ u.takesCommand (.get 1 5) :=
  ⟨by decide, by decide, by decide, by decide, by decide, ⟨rfl, rfl, rfl, 0x200000010005012C, rfl, by decide⟩,
    _, rfl, _, runsKeeping_handOver 1 5 rfl (by decide) rfl, rfl, rfl, rfl, 0x3000000100050000, rfl, by decide⟩

/-- The same for `INIT 2, 6` and `GET 1, 5`, on a block without an image. -/
theorem test_witness_GetAfterInitIsZero :
    let s := State.commanding State.reset [0x1000000200060000, 0x3000000100050000]
    (6 : Dim).toNat % 6 = 0 ∧ (∀ cap, s.params.pixcap = some cap → (2 : Dim).toNat * (6 : Dim).toNat ≤ cap) ∧
    (1 : Dim).toNat < (2 : Dim).toNat ∧ (5 : Dim).toNat < (6 : Dim).toNat ∧
    (∀ i ∈ [Instr.set 0 5 7, .get 1 5], leavesPixel 1 5 i = true) ∧ s.takesCommand (.init 2 6) ∧
    (∃ t, step s = .next t ∧ ∃ u, t.runsKeeping 1 5 1 u ∧ u.takesCommand (.get 1 5)) ∧ (7 : Dim).toNat % 6 ≠ 0 :=
  ⟨by decide, fun _ h => none_ne_some h, by decide, by decide, by decide,
    ⟨rfl, rfl, rfl, 0x1000000200060000, rfl, by decide⟩,
    ⟨_, rfl, _, runsKeeping_handOver 1 5 rfl (by decide) rfl, rfl, rfl, rfl, 0x3000000100050000, rfl, by decide⟩,
    by decide⟩

/-- Of `EncodeIsReadOnly` too. -/
theorem test_witness_PixelFrame :
    (∃ t, exec (.set 1 5 7) fixture = .next t) ∧ fixture.valid = true ∧ fixture.inImage 1 5 = true ∧
    fixture.inImage 0 5 = true ∧ ((0 : Dim), (5 : Dim)) ≠ (1, 5) ∧ fixture.inImage 2 0 = false ∧
    (∃ t, exec (.get 1 5) fixture = .next t) ∧ (∃ t, exec .encode fixture = .next t) ∧
    fixtureColumn.busy = true ∧ fixtureColumn.rstHigh = false ∧ ∃ t, step fixtureColumn = .next t :=
  ⟨⟨_, rfl⟩, by decide, by decide, by decide, by decide, by decide, ⟨_, rfl⟩, ⟨_, rfl⟩, by decide, by decide, ⟨_, rfl⟩⟩

/-- Both ways for the image: a step that keeps it, and an `INIT`. -/
theorem test_witness_ImageChangesOnlyByInitSetReset :
    (∃ t, step (State.offering fixture [0x1000000100060000]) = .next t ∧ t.width = 1) ∧
    (∃ t, step (State.offering fixture [0x3000000100050000]) = .next t ∧ t.width = 2) ∧
    (State.offering fixture [0x1000000100060000]).rstHigh = false :=
  ⟨⟨_, rfl, rfl⟩, ⟨_, rfl, rfl⟩, rfl⟩

/-! ### Witnesses: the functions of the encode pass -/

/-- For `ScanIsRowMajor`, `MaskBitIsRowMatch`, `DiscoveredColorShows` and `MasksPartitionColumn`: positions of the scan,
the first and the last; a column; a color that shows and one that does not. -/
theorem test_witness_strip :
    0 < 6 * fixture.width.toNat ∧ 11 < 6 * fixture.width.toNat ∧ 0 < fixture.width.toNat ∧ 1 < fixture.width.toNat ∧
    (3 : Color) ∈ fixture.colors 0 ∧ (4 : Color) ∉ fixture.colors 0 ∧ (1 : Color) ≠ 2 := by decide

/-- Two states that differ outside strip 0, with the same strip 0. -/
theorem test_witness_ColorsInFirstSeenOrder :
    let s := imageState 1 12 [(0, 5), (6, 1)]
    let t := imageState 1 12 [(0, 5), (6, 2)]
    0 < s.width.toNat ∧ t.width = s.width ∧
      ∀ x < s.width.toNat, ∀ r < 6, t.pixRead x (6 * 0 + r) = s.pixRead x (6 * 0 + r) := by decide

/-- Followed by a framing byte on either side of the digits: `!3~`, `!12?`; and a number of 5 digits. -/
theorem test_witness_DecimalSelfDelimiting :
    ((0x2D : Byte).toNat < 48 ∨ 57 < (0x2D : Byte).toNat) ∧ ((0x7E : Byte).toNat < 48 ∨ 57 < (0x7E : Byte).toNat) ∧
    dec 12 ++ (0x7E : Byte) :: [0x24] = dec 12 ++ (0x7E : Byte) :: [0x24] := by decide

theorem test_witness_DecimalSpelling : (9 < 10) ∧ 10 ≤ 10 ∧ 65535 ≤ 65535 := by decide

/-- Of `RleNeverLonger` too. -/
theorem test_witness_FlushPolicy : 3 ≤ 3 ∧ (flush 126 3).length = 3 ∧ 65535 ≤ 65535 := by decide

theorem test_witness_CompressorMeetsClosedForm : ∀ b ∈ ([63, 63, 63, 126] : List Byte), b ≠ 0 := by decide

theorem test_witness_EncodeCornerCases :
    (imageState 3 0 []).height = 0 ∧ (imageState 0 12 []).width = 0 ∧ column5.width = 1 ∧ column5.height = 6 ∧
    ∀ y < 6, column5.pixRead 0 y = 5 := by decide

/-- The stream of S1, as a sentence of the grammar. -/
theorem test_witness_GrammarSelfDelimiting :
    dataOk [[((5 : Color), [Token.literal 126])], []] ∧
    streamBytes [[((5 : Color), [Token.literal 126])]] = column5.encodeImage := by
  constructor
  · unfold dataOk; decide
  · decide

theorem test_witness_StreamByteKinds : (0x23 : Byte) ∈ column5.encodeImage := by decide

/-! ### Witnesses: the sequencer and the ports -/

/-- An ENCODE in the phase `p`, at strip `k`. -/
def inPhase (p : Phase) (k : Dim) : State := { fixture with phase := p, strip := k, clist := [1, 2, 3] }

theorem test_witness_EncodeStarts :
    State.reset.valid = false ∧ fixture.valid = true ∧
    (let s := State.offering State.reset [0x4000000000000000]
     s.rstHigh = false ∧ s.phase = .idle ∧ s.rsp = none ∧
      s.env.cmds.head? = some (some (0x4000000000000000 : CmdWord)) ∧ s.valid = false) ∧
    (let s := State.offering fixture [0x4000000000000000]
     s.rstHigh = false ∧ s.phase = .idle ∧ s.rsp = none ∧
      s.env.cmds.head? = some (some (0x4000000000000000 : CmdWord)) ∧ s.valid = true) := by decide

theorem test_witness_StripBeginStep :
    (inPhase .stripBegin 1).phase = .stripBegin ∧ (inPhase .stripBegin 1).strip.toNat = fixture.height.toNat / 6 ∧
    (inPhase .stripBegin 0).valid = true ∧ (inPhase .stripBegin 0).strip.toNat < fixture.height.toNat / 6 := by decide

theorem test_witness_ColorBeginStep :
    (inPhase .colorBegin 0).phase = .colorBegin ∧
    ({ inPhase .colorBegin 0 with cidx := 3 } : State).cidx.toNat = (inPhase .colorBegin 0).clist.length ∧
    (inPhase .colorBegin 0).clist[(inPhase .colorBegin 0).cidx.toNat]? = some 1 := by decide

/-- Column 1 of color 1 after column 0 (a byte that differs), column 1 of color 3 (an equal byte), after the last. -/
theorem test_witness_ColumnStep :
    fixtureColumn.phase = .column ∧ fixtureColumn.valid = true ∧
    fixtureColumn.strip.toNat < fixtureColumn.height.toNat / 6 ∧
    (let s : State := { fixtureColumn with x := 1, lastByte := 116 }
     s.x.toNat < s.width.toNat ∧ BitVec.ofNat 8 (63 + s.mask s.strip.toNat s.cur s.x.toNat) ≠ s.lastByte) ∧
    (let s : State := { fixtureColumn with cidx := 2, cur := 3, x := 1, lastByte := 71 }
     s.x.toNat < s.width.toNat ∧ BitVec.ofNat 8 (63 + s.mask s.strip.toNat s.cur s.x.toNat) = s.lastByte) ∧
    fixtureColumn.x = fixtureColumn.width := by decide

theorem test_witness_StripEndStep : (inPhase .stripEnd 0).phase = .stripEnd := by decide

theorem test_witness_FinishStep :
    (inPhase .finish 1).phase = .finish ∧ (inPhase .finish 1).rstHigh = false ∧ (inPhase .finish 1).oq = [] ∧
    ({ inPhase .finish 1 with oq := [0x2D] } : State).oq = 0x2D :: [] := by decide

/-- A running ENCODE with `u$` in `oq` and the given answers to come. -/
def draining (as : List (Option SinkAnswer)) : State :=
  State.answering { inPhase .colorBegin 0 with cidx := 1, oq := [0x75, 0x24] } as

theorem test_witness_OfferOutcomes :
    (draining []).oq = 0x75 :: [0x24] ∧ (draining []).env.answers = [] ∧
    (draining [none]).env.answers = none :: [] ∧ (draining [some .accept]).env.answers = some .accept :: [] ∧
    (draining [some .fail]).env.answers = some .fail :: [] := by decide

/-- `oq` empty; a byte on offer; no room in `oq`; both steps enabled, with each choice. -/
theorem test_witness_SequencerScheduling :
    (inPhase .colorBegin 0).busy = true ∧ (inPhase .colorBegin 0).rstHigh = false ∧ (inPhase .colorBegin 0).oq = [] ∧
    (draining []).busy = true ∧ (draining []).rstHigh = false ∧ (draining []).oq = 0x75 :: [0x24] ∧
    ({ draining [] with out := some 0x75 } : State).out ≠ none ∧
    (let s : State := { draining [] with oq := [0x75, 0x24, 1, 2, 3, 4, 5] }
     s.out = none ∧ s.params.oqcap < s.oq.length + s.seqBytes.length) ∧
    (let s : State := { draining [] with oq := [0x75, 0x24, 1, 2, 3, 4] }
     s.out = none ∧ s.phase ≠ .finish ∧ s.oq.length + s.seqBytes.length ≤ s.params.oqcap) ∧
    ({ draining [] with env := { Env.quiet with sched := [true] } } : State).env.sched.head? = some true ∧
    (draining []).env.sched.head? ≠ some true := by decide

theorem test_witness_CommandPortClosed :
    (draining []).busy = true ∧ (draining []).rstHigh = false ∧ (∃ t, step (draining []) = .next t) ∧
    ({ fixture with rsp := some 0 } : State).rsp ≠ none ∧ ({ fixture with rsp := some 0 } : State).rstHigh = false ∧
    ∃ t, step { fixture with rsp := some 0 } = .next t :=
  ⟨by decide, by decide, ⟨_, rfl⟩, by decide, by decide, ⟨_, rfl⟩⟩

theorem test_witness_StreamGrowsByAcceptedHead :
    ∃ t, step (draining [some .accept]) = .next t ∧ t.env.stream = [0x75] := ⟨_, rfl, rfl⟩

theorem test_witness_SilentSinkBlocks :
    let s : State := { draining [] with out := some 0x75 }
    s.busy = true ∧ s.oq.head? = some 0x75 ∧ s.out = some 0x75 ∧ s.env.rst = [] ∧ s.env.answers = [] := by decide

theorem test_witness_ResponseHandedOver :
    let s (ts : List Bool) : State := { fixture with rsp := some 0x00010000, env := { Env.quiet with takes := ts } }
    (s []).rstHigh = false ∧ (s []).phase = .idle ∧ (s []).rsp = some 0x00010000 ∧
    (s [true]).env.takes = true :: [] ∧ (s [false]).env.takes = false :: [] ∧ (s []).env.takes = [] := by decide

/-- `rst` in the middle of an ENCODE (P7). -/
theorem test_witness_ResetAtAnyTime :
    ({ draining [] with env := { Env.quiet with rst := [true] } } : State).env.rst = true :: [] := by decide

/-! ### Witnesses: the invariant and the whole machine -/

theorem column5_memoryOk : column5.memoryOk := ⟨by decide, by decide⟩

/-- In the middle of a color block of the source's example, with `#5` in `oq` and the `#` on offer. -/
def column5Running : State :=
  { column5 with
    phase := .column, strip := 0, clist := [5], cidx := 0, cur := 5, x := 1
    lastByte := 126, runCount := 1, oq := [0x23, 0x35], out := some 0x23 }

/-- At the end of its strip, with `$` in `oq`. -/
def column5StripEnd : State := { column5 with phase := .stripEnd, oq := [0x24] }

theorem column5_Inv : column5.Inv :=
  ⟨fun _ => by decide, column5_memoryOk,
    ⟨by decide, fun _ h => none_ne_some h, fun _ => rfl, fun h => absurd h (by decide)⟩, trivial⟩

theorem column5Running_Inv : column5Running.Inv :=
  ⟨fun _ => by decide, column5_memoryOk, ⟨by decide, fun _ h => h, fun h => absurd h (by decide), fun _ => by decide⟩,
    ⟨by decide, by decide, by decide, by decide, by unfold State.runOk; decide⟩⟩

theorem column5StripEnd_Inv : column5StripEnd.Inv :=
  ⟨fun _ => by decide, column5_memoryOk,
    ⟨by decide, fun _ h => none_ne_some h, fun h => absurd h (by decide), fun _ => by decide⟩,
    show column5StripEnd.strip.toNat < column5StripEnd.strips by decide⟩

/-- The invariant speaks of the block, not of the outside world. -/
theorem Inv_of_env {s : State} (h : s.Inv) (e : Env) : ({ s with env := e } : State).Inv := h

/-- Of `InvariantNeverStops` too. The invariant, in a state of each kind: idle with an image, and in the middle of a color
block; and a step. -/
theorem test_witness_StepKeepsInvariant :
    column5.Inv ∧ column5Running.Inv ∧ ∃ t, step column5Running = .next t :=
  ⟨column5_Inv, column5Running_Inv, _, rfl⟩

/-- An ENCODE of the source's example about to be accepted, with the given answers of the sink. -/
def encodeColumn5 (as : List (Option SinkAnswer)) : State :=
  State.answering (State.offering column5 [0x4000000000000000]) as

theorem test_witness_encodeOffered (as : List (Option SinkAnswer)) : (encodeColumn5 as).encodeOffered :=
  ⟨Inv_of_env column5_Inv _, rfl, rfl, rfl, rfl, rfl⟩

theorem test_witness_PixelAddressesDistinct :
    column5.inImage 0 0 = true ∧ column5.inImage 0 5 = true ∧ column5.Inv ∧ column5.valid = true :=
  ⟨by decide, by decide, column5_Inv, rfl⟩

/-- A step of a running ENCODE from a state with the invariant, with a sink that accepts and with one that fails. -/
theorem test_witness_EncodeKeepsAccount : ∀ a : SinkAnswer,
    let s : State := { column5StripEnd with env := { Env.quiet with answers := [some a] } }
    s.Inv ∧ s.busy = true ∧ s.rstHigh = false ∧ ∃ t, step s = .next t := by
  intro a
  exact ⟨Inv_of_env column5StripEnd_Inv _, rfl, rfl, by cases a <;> exact ⟨_, rfl⟩⟩

theorem test_witness_EncodeRunsToCompletion :
    let s := encodeColumn5 (List.replicate 5 (some .accept))
    s.encodeOffered ∧ s.sinkAccepts s.encodeImage.length :=
  ⟨test_witness_encodeOffered _, by unfold State.sinkAccepts; decide⟩

theorem test_witness_EncodeOutcomes :
    let s := encodeColumn5 [some .accept, none, some .fail]
    s.encodeOffered ∧ s.env.cmds.tail = [] ∧ ∃ t, Host.Core.run Sys2Proof.core 1 s = .next t :=
  ⟨test_witness_encodeOffered _, rfl, ⟨_, rfl⟩⟩

/-- A failure at the first byte, and at the last. -/
theorem test_witness_EncodeFailsAtAnyByte :
    (let s := encodeColumn5 [some .fail]
     s.encodeOffered ∧ 0 < s.encodeImage.length ∧ s.sinkAccepts 0 ∧ s.env.answers[0]? = some (some .fail)) ∧
    (let s := encodeColumn5 (List.replicate 4 (some .accept) ++ [some .fail])
     s.encodeOffered ∧ 4 < s.encodeImage.length ∧ s.sinkAccepts 4 ∧ s.env.answers[4]? = some (some .fail)) :=
  ⟨⟨test_witness_encodeOffered _, by decide, by unfold State.sinkAccepts; decide, by decide⟩,
    ⟨test_witness_encodeOffered _, by decide, by unfold State.sinkAccepts; decide, by decide⟩⟩

/-- Two states with the same image and different working registers. -/
theorem test_witness_EncodeDependsOnImageOnly :
    let s := encodeColumn5 (List.replicate 5 (some .accept))
    let t : State := { s with cur := 7, clist := [1, 2], lastByte := 99, runCount := 3 }
    s.encodeOffered ∧ t.encodeOffered ∧ s.sameImage t ∧ s.sinkAccepts s.encodeImage.length ∧
      t.sinkAccepts s.encodeImage.length :=
  ⟨test_witness_encodeOffered _, test_witness_encodeOffered _, ⟨rfl, rfl, rfl, rfl⟩,
    by unfold State.sinkAccepts; decide, by unfold State.sinkAccepts; decide⟩

/-- The same block and the same inputs of this step, with different inputs to come and different things delivered. -/
theorem test_witness_BlockStepsByItsInputs :
    let s := draining [some .accept]
    let t : State := { s with env := { s.env with answers := [some .accept, some .fail], stream := [1], cmds := [none] } }
    t.toBlockState = s.toBlockState ∧ t.params = s.params ∧ t.draws = s.draws ∧ t.inputs = s.inputs ∧ t ≠ s ∧
      ∃ s', step s = .next s' :=
  ⟨rfl, rfl, rfl, rfl, by decide, _, rfl⟩

/-- A cut of `@AA` into maximal runs. -/
theorem test_witness_RleFlushesMaximalRuns : cutsInto [0x40, 0x41, 0x41] [(0x40, 1), (0x41, 2)] := by
  refine ⟨by decide, by decide, fun q r h => ?_⟩
  obtain ⟨l, m, e⟩ := h
  cases l with
  | nil => cases e; decide
  | cons a l => have := congrArg List.length e; simp at this; omega

/-- Of `InputsAreOnlyConsumed`: a step that uses an answer and delivers a byte. -/
theorem test_witness_InputsAreOnlyConsumed : ∃ t, step (draining [some .accept]) = .next t ∧ t.env.answers = [] :=
  ⟨_, rfl, rfl⟩

/-- The parameters and the outside world are arguments of reset: `PIXCAP = 60` (P6), another `OQCAP`. -/
theorem test_reset_params : (State.resetOf ⟨some 60, 3⟩ Env.quiet).params.oqcap = 11 ∧
    (State.resetOf ⟨some 60, 3⟩ Env.quiet).toBlockState = State.reset.toBlockState := by decide

end Sys2Proof.Tests
end

/-! ### What a step can do: inversion of the sequencer, of the commands and of the whole step -/

namespace Sys2Proof.Machine

/-- The moves of the sequencer, with the guard of each (44_encode.md R109 to R113). -/
inductive SeqMove (s : State) : State → Prop
  | stay (hp : s.phase = .idle) : SeqMove s s
  | lastStrip (hp : s.phase = .stripBegin) (hk : s.strip.toNat = s.strips) : SeqMove s (s.enter .finish)
  | discover (hp : s.phase = .stripBegin) (hr : s.stripReadable = true) : SeqMove s s.firstColor
  | noColor (hp : s.phase = .colorBegin) (hc : s.clist[s.cidx.toNat]? = none) : SeqMove s (s.enter .stripEnd)
  | color {c : Color} (hp : s.phase = .colorBegin) (hc : s.clist[s.cidx.toNat]? = some c) :
      SeqMove s ((s.push s.seqBytes).firstColumn c)
  | column (hp : s.phase = .column) (hx : s.x.toNat < s.width.toNat) (hr : s.stripReadable = true) :
      SeqMove s ((s.push s.seqBytes).feedRun s.curByte).nextColumn
  | lastColumn (hp : s.phase = .column) (hx : ¬ s.x.toNat < s.width.toNat) :
      SeqMove s (s.push s.seqBytes).nextColor
  | stripEnd (hp : s.phase = .stripEnd) : SeqMove s (s.push s.seqBytes).nextStrip
  | finish (hp : s.phase = .finish) : SeqMove s (s.leaveWorking.respond .ok 0)

/-- A sequencer step that answers a next state is one of the moves. -/
theorem seqMove_of_seqStep {s t : State} (h : seqStep s = .next t) : SeqMove s t := by
  cases hp : s.phase <;> simp only [seqStep, hp] at h
  case idle => cases h; exact .stay hp
  case stripBegin =>
    unfold seqStripBegin at h
    split at h
    · cases h; exact .lastStrip hp ‹_›
    · split at h
      · cases h
      · cases h; exact .discover hp (eq_true_of_ne_false ‹_›)
  case colorBegin =>
    unfold seqColorBegin at h
    split at h
    · cases h; exact .noColor hp ‹_›
    · cases h; exact .color hp ‹_›
  case column =>
    unfold seqColumn at h
    split at h
    · split at h
      · cases h
      · cases h; exact .column hp ‹_› (eq_true_of_ne_false ‹_›)
    · cases h; exact .lastColumn hp ‹_›
  case stripEnd => cases h; exact .stripEnd hp
  case finish => cases h; exact .finish hp

/-- The sequencer touches neither the image nor what stands beside the block (20_memory.md R43, 10_state.md R24). -/
theorem SeqMove.frame {s t : State} (h : SeqMove s t) :
    s.sameImage t ∧ t.params = s.params ∧ t.env = s.env := by
  cases h <;> simp [State.sameImage]

/-- What the meaning of a command can do, with the guard of each success: it raises an error, or does its work. -/
inductive ExecMove (s : State) : Instr → State → Prop
  | raise (i : Instr) (st : Status) : ExecMove s i (s.raise st)
  | init {w h : Dim} (hh : heightOk h = true) (hf : s.params.fits (cellCount w h) = true) :
      ExecMove s (.init w h) ((s.newImage w h).respond .ok 0)
  | set {x y : Dim} (c : Color) (hv : s.valid = true) (hxy : s.inImage x y = true) :
      ExecMove s (.set x y c) ((s.pixWrite x.toNat y.toNat c).respond .ok 0)
  | get (x y : Dim) : ExecMove s (.get x y) (s.respond .ok (s.pixRead x.toNat y.toNat))
  | encode (hv : s.valid = true) : ExecMove s .encode s.firstStrip

/-- A command is carried out by one of the moves. -/
theorem execMove_of_exec {s t : State} {i : Instr} (h : exec i s = .next t) : ExecMove s i t := by
  cases i with
  | init w h' =>
    simp only [exec, execInit] at h
    split at h
    · cases h; exact .raise _ _
    · split at h
      · cases h; exact .raise _ _
      · cases h; exact .init (eq_true_of_ne_false ‹_›) (eq_true_of_ne_false ‹_›)
  | set x y c =>
    simp only [exec, execSet] at h
    split at h
    · cases h; exact .raise _ _
    · split at h
      · cases h; exact .raise _ _
      · cases h; exact .set c (eq_true_of_ne_false ‹_›) (eq_true_of_ne_false ‹_›)
  | get x y =>
    simp only [exec, execGet] at h
    split at h
    · cases h; exact .raise _ _
    · split at h
      · cases h; exact .raise _ _
      · cases h; exact .get x y
  | encode =>
    simp only [exec, execEncode] at h
    split at h
    · cases h; exact .raise _ _
    · cases h; exact .encode (eq_true_of_ne_false ‹_›)

/-- A command touches neither the queue nor the output port nor what stands beside the block. -/
theorem ExecMove.frame {s t : State} {i : Instr} (h : ExecMove s i t) :
    t.oq = s.oq ∧ t.out = s.out ∧ t.params = s.params ∧ t.env = s.env := by
  cases h <;> exact ⟨rfl, rfl, rfl, rfl⟩

/-- What a whole step can do, in the order of its business: `rst`; a running ENCODE; a waiting response; the command
port (log entry 11). -/
inductive StepMove (s : State) : State → Prop
  | reset (hrst : s.rstHigh = true) : StepMove s s.passRst.takeReset
  | seqOnEmpty {t : State} (hrst : s.rstHigh = false) (hb : s.busy = true) (hq : s.oq = [])
      (h : SeqMove s.passRst t) : StepMove s t
  | seqByChoice {t : State} (hrst : s.rstHigh = false) (hb : s.busy = true) (ho : s.out = none)
      (he : s.seqEnabled = true) (h : SeqMove s.passRst.passSched t) : StepMove s t
  | offer {b : Byte} {rest : List Byte} (hrst : s.rstHigh = false) (hb : s.busy = true) (hq : s.oq = b :: rest) :
      StepMove s (s.passRst.drain b rest)
  | offerByChoice {b : Byte} {rest : List Byte} (hrst : s.rstHigh = false) (hb : s.busy = true)
      (hq : s.oq = b :: rest) : StepMove s (s.passRst.passSched.drain b rest)
  | response (hrst : s.rstHigh = false) (hb : s.busy = false) (hr : s.rsp ≠ none) : StepMove s s.passRst.hostTakes
  | noWord (hrst : s.rstHigh = false) (hb : s.busy = false) (hr : s.rsp = none) : StepMove s s.passRst.passCmd
  | illegal (hrst : s.rstHigh = false) (hb : s.busy = false) (hr : s.rsp = none) :
      StepMove s s.passRst.passCmd.illegalWord
  | command {w : CmdWord} {i : Instr} {t : State} (hrst : s.rstHigh = false) (hb : s.busy = false)
      (hr : s.rsp = none) (hw : s.offeredWord = some w) (hd : decode w = .ok i)
      (h : ExecMove s.passRst.passCmd i t) : StepMove s t

/-- A step that answers a next state is one of the moves. -/
theorem stepMove_of_step {s t : State} (h : step s = .next t) : StepMove s t := by
  cases hrst : s.rstHigh with
  | true => rw [step_of_rstHigh hrst] at h; cases h; exact .reset hrst
  | false =>
    rw [step_of_rstLow hrst] at h
    cases hb : s.busy with
    | true =>
      rw [cycle_of_busy (s := s.passRst) hb] at h
      rcases runBusy_cases s.passRst with
        ⟨hq, e⟩ | ⟨b, rest, hq, e⟩ | ⟨b, rest, hq, e⟩ | ⟨b, rest, hq, ho, he, e⟩ <;> rw [e] at h
      · exact .seqOnEmpty hrst hb hq (seqMove_of_seqStep h)
      · cases h; exact .offer hrst hb hq
      · cases h; exact .offerByChoice hrst hb hq
      · exact .seqByChoice hrst hb ho he (seqMove_of_seqStep h)
    | false =>
      by_cases hr : s.rsp = none
      · rw [cycle_of_open (s := s.passRst) hb hr] at h
        rcases commandPort_cases s.passRst with ⟨-, e⟩ | ⟨w, _, -, -, e⟩ | ⟨w, i, hw, hd, e⟩ <;> rw [e] at h
        · cases h; exact .noWord hrst hb hr
        · cases h; exact .illegal hrst hb hr
        · exact .command hrst hb hr hw hd (execMove_of_exec h)
      · rw [cycle_of_rsp (s := s.passRst) hb hr] at h
        cases h; exact .response hrst hb hr

theorem State.busy_eq_false_iff {s : State} : s.busy = false ↔ s.phase = .idle := by simp [State.busy]

theorem State.busy_eq_true_iff {s : State} : s.busy = true ↔ s.phase ≠ .idle := by simp [State.busy]

end Sys2Proof.Machine

/-! ### Bounds: decimal numbers, flushes, color-run bytes, registers, addresses -/

namespace Sys2Proof.Machine

/-- A number below `10 ^ d` is spelled in at most `d` digits, whatever bound on the divisions is given. -/
theorem length_decFuel_le (k : Nat) {d n : Nat} (hd : 1 ≤ d) (hn : n < 10 ^ d) : (decFuel k n).length ≤ d := by
  induction k generalizing d n with
  | zero => simpa [decFuel] using hd
  | succ k ih =>
    unfold decFuel
    split
    · simpa using hd
    · obtain ⟨e, rfl⟩ : ∃ e, d = e + 1 := ⟨d - 1, by omega⟩
      have hn' : n / 10 < 10 ^ e := by rw [pow_succ] at hn; omega
      have he : 1 ≤ e := Nat.one_le_iff_ne_zero.2 fun h0 => by simp [h0] at hn; omega
      simpa using ih he hn'

theorem length_dec_le_five {n : Nat} (hn : n < 2 ^ 16) : (dec n).length ≤ 5 :=
  length_decFuel_le n (by decide) (by omega)

/-- `'!'`, at most five digits and the byte (43_rle.md R98 (d)). -/
theorem length_flush_le_seven (b : Byte) {n : Nat} (hn : n < 2 ^ 16) : (flush b n).length ≤ 7 := by
  have hdec := length_dec_le_five hn
  unfold flush Config.rleMin
  split
  · simp; omega
  · simp; omega

theorem State.length_flushPending_le (s : State) : s.flushPending.length ≤ 7 :=
  length_flush_le_seven _ s.runCount.isLt

/-- R22: the longest push is a flushed run and the `'$'` after it. -/
theorem State.length_seqBytes_le (s : State) : s.seqBytes.length ≤ 8 := by
  have hf := s.length_flushPending_le
  cases hp : s.phase <;> simp only [State.seqBytes, hp]
  case colorBegin =>
    split
    · simp
    · rename_i c _
      have hdec := length_dec_le_five c.isLt
      simp; omega
  case column =>
    split
    · split
      · simp
      · omega
    · simp; omega
  all_goals simp

/-- The mask has a bit for each of the six rows (42_bitmask.md R84). -/
theorem State.mask_le (s : State) (k : Nat) (c : Color) (x : Nat) : s.mask k c x ≤ 63 :=
  calc s.mask k c x ≤ ((List.range Config.stripH).map fun i => 2 ^ i).sum :=
        List.sum_le_sum fun i _ => by split <;> simp
    _ = 63 := by decide

theorem State.toNat_crb (s : State) (k : Nat) (c : Color) (x : Nat) : (s.crb k c x).toNat = 63 + s.mask k c x := by
  have hm := s.mask_le k c x
  simp only [State.crb, Config.base, BitVec.toNat_ofNat]
  omega

/-- R87. -/
theorem State.toNat_crb_bounds (s : State) (k : Nat) (c : Color) (x : Nat) :
    63 ≤ (s.crb k c x).toNat ∧ (s.crb k c x).toNat ≤ 126 := by
  have hm := s.mask_le k c x
  rw [State.toNat_crb]
  omega

/-- An increment that wraps only falls further behind. -/
theorem toNat_add_one_le {n : Nat} (a : BitVec n) : (a + 1).toNat ≤ a.toNat + 1 := by
  rw [BitVec.toNat_add]
  exact (Nat.mod_le _ _).trans (Nat.add_le_add_left (Nat.mod_le _ _) _)

/-- A register below another one does not wrap. -/
theorem toNat_add_one_of_lt {a b : Dim} (h : a.toNat < b.toNat) : (a + 1).toNat = a.toNat + 1 := by
  have hb := b.isLt
  rw [BitVec.toNat_add]
  exact Nat.mod_eq_of_lt (by simp; omega)

/-- A larger image needs a larger memory. -/
theorem Params.fits_mono {p : Params} {m n : Nat} (hmn : m ≤ n) (hn : p.fits n = true) : p.fits m = true := by
  unfold Params.fits at *
  split at hn
  · rfl
  · simp at hn ⊢; omega

/-- R31: the cell of a pixel of the image is one of the image's cells. -/
theorem State.pixAddr_lt {s : State} {x y : Dim} (h : s.inImage x y = true) :
    s.pixAddr x.toNat y.toNat < cellCount s.width s.height := by
  obtain ⟨hx, hy⟩ : x.toNat < s.width.toNat ∧ y.toNat < s.height.toNat := by simpa [State.inImage] using h
  calc s.pixAddr x.toNat y.toNat < (y.toNat + 1) * s.width.toNat := by rw [State.pixAddr, Nat.succ_mul]; omega
    _ ≤ s.height.toNat * s.width.toNat := Nat.mul_le_mul_right _ hy
    _ = cellCount s.width s.height := Nat.mul_comm _ _

end Sys2Proof.Machine

/-! ### The invariant is kept by every step (O51) -/

namespace Sys2Proof.Machine

/-! #### The parts of the invariant, one by one -/

theorem State.imageOk.congr {s t : State} (h : s.imageOk) (hi : s.sameImage t) (hp : t.params = s.params) :
    t.imageOk := by
  obtain ⟨hv, hw, hh, -⟩ := hi
  simpa only [State.imageOk, hv, hw, hh, hp] using h

theorem State.memoryOk.congr {s t : State} (h : s.memoryOk) (hi : s.sameImage t) (hp : t.params = s.params) :
    t.memoryOk := by
  obtain ⟨-, -, -, hpix⟩ := hi
  simpa only [State.memoryOk, hpix, hp] using h

/-- An idle block has nothing more to meet than an image and a memory as they should be, and empty output. -/
theorem Inv_of_idle {s : State} (hi : s.imageOk) (hm : s.memoryOk) (hp : s.phase = .idle) (hq : s.oq = [])
    (ho : s.out = none) : s.Inv :=
  ⟨hi, hm, ⟨by simp [hq], by simp [ho], fun _ => hq, fun hb => absurd hp (State.busy_eq_true_iff.1 hb)⟩,
    by simp [State.positionOk, hp]⟩

theorem State.Inv.oq_of_idle {s : State} (h : s.Inv) (hp : s.phase = .idle) : s.oq = [] := by
  obtain ⟨-, -, ⟨-, -, hidle, -⟩, -⟩ := h
  exact hidle (State.busy_eq_false_iff.2 hp)

/-- With an empty queue nothing is on offer. -/
theorem State.Inv.out_of_oq_nil {s : State} (h : s.Inv) (hq : s.oq = []) : s.out = none := by
  obtain ⟨-, -, ⟨-, hout, -, -⟩, -⟩ := h
  exact Option.eq_none_iff_forall_ne_some.2 fun b hb => by simpa [hq] using hout b hb

/-! #### The sequencer -/

theorem SeqMove.out_eq {s t : State} (h : SeqMove s t) : t.out = s.out := by
  cases h <;> simp

/-- What a sequencer step appends to the queue is what it pushes (R22). -/
theorem SeqMove.oq_eq {s t : State} (h : SeqMove s t) : t.oq = s.oq ++ s.seqBytes := by
  cases h <;> simp [State.seqBytes, *]

/-- Only `FINISH` ends an ENCODE, and only then there is a response. -/
theorem SeqMove.running {s t : State} (h : SeqMove s t) (hp : s.phase ≠ .idle) (hf : s.phase ≠ .finish) :
    t.phase ≠ .idle ∧ t.rsp = s.rsp := by
  cases h with
  | stay hp' => exact absurd hp' hp
  | finish hp' => exact absurd hp' hf
  | _ => simp [hp]

theorem SeqMove.portsOk {s t : State} (h : SeqMove s t) (hs : s.portsOk) (hp : s.phase ≠ .idle)
    (ho : s.out = none) (hroom : s.oq.length + s.seqBytes.length ≤ s.params.oqcap) (hf : s.phase ≠ .finish) :
    t.portsOk := by
  obtain ⟨⟨hv, -⟩, hpar, -⟩ := h.frame
  obtain ⟨hidle, hrsp⟩ := h.running hp hf
  obtain ⟨-, -, -, hbusy⟩ := hs
  refine ⟨by simpa [h.oq_eq, hpar] using hroom, by simp [h.out_eq, ho], fun hb => ?_, fun _ => ?_⟩
  · exact absurd (State.busy_eq_false_iff.1 hb) hidle
  · rw [hv, hrsp]; exact hbusy (State.busy_eq_true_iff.2 hp)

/-- One more column keeps the bounds of the pending run: its byte is a color-run byte, and it grows by one at most. -/
theorem State.runOk.nextColumn {s : State} (h : s.runOk) (hx : s.x.toNat < s.width.toNat)
    (bs : List Byte) : ((s.push bs).feedRun s.curByte).nextColumn.runOk := by
  obtain ⟨hlo, hhi⟩ := s.toNat_crb_bounds s.strip.toNat s.cur s.x.toNat
  rw [← State.curByte] at hlo hhi
  have hx' := toNat_add_one_of_lt hx
  unfold State.runOk at h ⊢
  simp only [State.nextColumn_x, State.nextColumn_lastByte, State.nextColumn_runCount, State.feedRun_x,
    State.feedRun_lastByte, State.feedRun_runCount, State.push_x, State.push_lastByte, State.push_runCount, hx',
    Nat.add_one_ne_zero, if_false]
  refine ⟨hlo, hhi, ?_⟩
  split at h
  · obtain ⟨hlast, -⟩ := h
    have hne : s.curByte ≠ s.lastByte := fun e => by simp [e, hlast] at hlo
    simp [hne]
  · obtain ⟨-, -, hpos, hle⟩ := h
    by_cases he : s.curByte = s.lastByte
    · have hn' := toNat_add_one_of_lt (hle.trans_lt hx)
      simp only [he, if_true, hn']
      omega
    · simp [he]

/-- The position of the sequencer stays within its bounds (10_state.md R17). -/
theorem SeqMove.positionOk {s t : State} (h : SeqMove s t) (hs : s.positionOk) : t.positionOk := by
  obtain ⟨⟨-, hwid, hhgt, hpix⟩, -, -⟩ := h.frame
  have hcols := State.colors_congr hwid hpix
  have hstrips : t.strips = s.strips := by rw [State.strips, State.strips, hhgt]
  cases h with
  | stay hp => exact hs
  | lastStrip hp hk => exact hk
  | discover hp hr =>
    have hk : s.strip.toNat < s.strips := by simp [State.stripReadable] at hr; exact hr.2
    exact ⟨hk, rfl, Nat.zero_le _⟩
  | noColor hp hc =>
    simp only [State.positionOk, hp] at hs
    exact hs.1
  | color hp hc =>
    simp only [State.positionOk, hp] at hs
    obtain ⟨hk, hcl, -⟩ := hs
    exact ⟨hk, hcl, hc, Nat.zero_le _, by simp [State.runOk]⟩
  | column hp hx hr =>
    simp only [State.positionOk, hp] at hs
    obtain ⟨hk, hcl, hcur, -, hrun⟩ := hs
    have hx' : (s.x + 1).toNat ≤ s.width.toNat := (toNat_add_one_le _).trans hx
    simpa [State.positionOk, hp, hcols, hstrips] using ⟨hk, hcl, hcur, hx', hrun.nextColumn hx _⟩
  | lastColumn hp hx =>
    simp only [State.positionOk, hp] at hs
    obtain ⟨hk, hcl, hcur, -, -⟩ := hs
    have hlt : s.cidx.toNat < s.clist.length := (List.getElem?_eq_some_iff.1 hcur).1
    exact ⟨hk, hcl, (toNat_add_one_le _).trans hlt⟩
  | stripEnd hp =>
    simp only [State.positionOk, hp] at hs
    exact (toNat_add_one_le _).trans hs
  | finish hp => trivial

/-- A sequencer step keeps the invariant when nothing is on offer, `oq` has room for what it pushes, and `FINISH` waits
for `oq` to be empty (44_encode.md R113, R115). -/
theorem SeqMove.keeps_Inv {s t : State} (h : SeqMove s t) (hs : s.Inv) (hp : s.phase ≠ .idle) (ho : s.out = none)
    (hroom : s.oq.length + s.seqBytes.length ≤ s.params.oqcap) (hf : s.phase = .finish → s.oq = []) : t.Inv := by
  obtain ⟨hi, hm, hports, hpos⟩ := hs
  obtain ⟨himg, hpar, -⟩ := h.frame
  have hi' := hi.congr himg hpar
  have hm' := hm.congr himg hpar
  by_cases hfin : s.phase = .finish
  · cases h with
    | finish => exact Inv_of_idle hi' hm' rfl (hf hfin) ho
    | _ => simp_all
  · exact ⟨hi', hm', h.portsOk hports hp ho hroom hfin, h.positionOk hpos⟩

/-! #### The ports -/

/-- An offer keeps the invariant, whatever the sink answers. -/
theorem State.Inv.drain {s : State} {b : Byte} {rest : List Byte} (hs : s.Inv) (hp : s.phase ≠ .idle)
    (hq : s.oq = b :: rest) : (s.drain b rest).Inv := by
  obtain ⟨hi, hm, ⟨hcap, -, -, hbusy⟩, hpos⟩ := hs
  have hvr := hbusy (State.busy_eq_true_iff.2 hp)
  have hb (t : State) (ht : t.phase = s.phase) : t.busy = false → t.oq = [] :=
    fun h => absurd (ht ▸ State.busy_eq_false_iff.1 h) hp
  rcases s.drain_cases b rest with ⟨-, e⟩ | ⟨-, e⟩ | ⟨-, e⟩ <;> rw [e]
  · exact ⟨hi, hm, ⟨hcap, fun c hc => by simp_all, hb _ rfl, fun _ => hvr⟩, hpos⟩
  · have hcap' : rest.length ≤ s.params.oqcap := by rw [hq] at hcap; exact Nat.le_of_succ_le hcap
    exact ⟨hi, hm, ⟨hcap', fun c hc => by simp at hc, hb _ rfl, fun _ => hvr⟩, hpos⟩
  · exact Inv_of_idle hi hm rfl rfl rfl

/-- The host's side of the response port keeps the invariant. -/
theorem State.Inv.hostTakes {s : State} (hs : s.Inv) (hp : s.phase = .idle) : s.hostTakes.Inv := by
  have hq := hs.oq_of_idle hp
  have ho := hs.out_of_oq_nil hq
  obtain ⟨hi, hm, -, -⟩ := hs
  rcases s.hostTakes_cases with e | e <;> rw [e]
  · exact Inv_of_idle hi hm hp hq ho
  · exact Inv_of_idle hi hm hp hq ho

/-! #### The commands -/

theorem State.newImage_imageOk {s : State} {w h : Dim} (hh : heightOk h = true)
    (hf : s.params.fits (cellCount w h) = true) : (s.newImage w h).imageOk :=
  fun _ => ⟨by simpa [heightOk] using hh, hf⟩

theorem State.memoryOk.newImage {s : State} (hm : s.memoryOk) (w h : Dim) : (s.newImage w h).memoryOk :=
  ⟨Memory.wf_zeroFill hm.1 _, fun c hc => hm.2 c (List.mem_filter.1 hc).1⟩

/-- A pixel of the image is written into a cell that exists. -/
theorem State.memoryOk.pixWrite {s : State} (hm : s.memoryOk) (hi : s.imageOk) {x y : Dim} (hv : s.valid = true)
    (hxy : s.inImage x y = true) (c : Color) : (s.pixWrite x.toNat y.toNat c).memoryOk := by
  refine ⟨Memory.wf_write hm.1 _ _, fun d hd => ?_⟩
  rcases Memory.mem_write hd with ⟨rfl, -⟩ | hd
  · exact Params.fits_mono (State.pixAddr_lt hxy) (hi hv).2
  · exact hm.2 d hd

/-- An error raised while idle keeps the invariant. -/
theorem State.Inv.raise {s : State} (hs : s.Inv) (hp : s.phase = .idle) (st : Status) : (s.raise st).Inv := by
  have hq := hs.oq_of_idle hp
  have ho := hs.out_of_oq_nil hq
  obtain ⟨hi, hm, -, -⟩ := hs
  exact Inv_of_idle hi hm rfl hq ho

/-- A command taken at an open port keeps the invariant. -/
theorem ExecMove.keeps_Inv {s t : State} {i : Instr} (h : ExecMove s i t) (hs : s.Inv) (hp : s.phase = .idle)
    (hr : s.rsp = none) : t.Inv := by
  have hq := hs.oq_of_idle hp
  have ho := hs.out_of_oq_nil hq
  have hraise := hs.raise hp
  obtain ⟨hi, hm, -, -⟩ := hs
  cases h with
  | raise i st => exact hraise st
  | init hh hf => exact Inv_of_idle (State.newImage_imageOk hh hf) (hm.newImage _ _) rfl hq ho
  | set c hv hxy => exact Inv_of_idle hi (hm.pixWrite hi hv hxy c) rfl hq ho
  | get x y => exact Inv_of_idle hi hm rfl hq ho
  | encode hv =>
    refine ⟨hi, hm, ⟨by simp [hq], by simp [ho], fun _ => hq, fun _ => ⟨hv, hr⟩⟩, ?_⟩
    exact show (0 : Dim).toNat ≤ s.strips from Nat.zero_le _

/-! #### Reset -/

theorem State.takeReset_memoryOk (s : State) : s.takeReset.memoryOk :=
  ⟨Memory.wf_ofCells _, fun _ hc => (List.mem_filter.1 (Memory.mem_ofCells hc)).2⟩

theorem State.takeReset_Inv (s : State) : s.takeReset.Inv :=
  Inv_of_idle (fun h => by simp at h) s.takeReset_memoryOk rfl rfl rfl

theorem State.resetOf_Inv (p : Params) (e : Env) : (State.resetOf p e).Inv :=
  Inv_of_idle (by simp [State.imageOk, BlockState.reset]) ⟨Memory.wf_nil, by simp [BlockState.reset]⟩ rfl rfl rfl

/-! #### The whole step -/

/-- Every move of the machine keeps the invariant. Reading an input leaves the block alone, so the invariant of `s` is
that of `s.passRst`, `s.passRst.passSched` and `s.passRst.passCmd`. -/
theorem StepMove.keeps_Inv {s t : State} (h : StepMove s t) (hs : s.Inv) : t.Inv := by
  cases h with
  | reset => exact State.takeReset_Inv _
  | seqOnEmpty _ hb hq h =>
    have hroom : s.oq.length + s.seqBytes.length ≤ s.params.oqcap := by
      have := s.length_seqBytes_le
      simp only [hq, Params.oqcap, List.length_nil]; omega
    exact h.keeps_Inv (s := s.passRst) hs (State.busy_eq_true_iff.1 hb) (hs.out_of_oq_nil hq) hroom fun _ => hq
  | seqByChoice _ hb ho he h =>
    obtain ⟨hf, hroom⟩ : s.phase ≠ .finish ∧ s.oq.length + s.seqBytes.length ≤ s.params.oqcap := by
      simpa [State.seqEnabled] using he
    exact h.keeps_Inv (s := s.passRst.passSched) hs (State.busy_eq_true_iff.1 hb) ho hroom fun h => absurd h hf
  | offer _ hb hq => exact State.Inv.drain (s := s.passRst) hs (State.busy_eq_true_iff.1 hb) hq
  | offerByChoice _ hb hq => exact State.Inv.drain (s := s.passRst.passSched) hs (State.busy_eq_true_iff.1 hb) hq
  | response _ hb hr => exact State.Inv.hostTakes (s := s.passRst) hs (State.busy_eq_false_iff.1 hb)
  | noWord => exact hs
  | illegal _ hb =>
    exact State.Inv.raise (s := s.passRst.passCmd) hs (State.busy_eq_false_iff.1 hb) .errIllegal
  | command _ hb hr _ _ h => exact h.keeps_Inv (s := s.passRst.passCmd) hs (State.busy_eq_false_iff.1 hb) hr

/-- Settles O51: a step is one of the moves, and each keeps the invariant. -/
theorem stepKeepsInvariant : Obligations.StepKeepsInvariant := by
  unfold Obligations.StepKeepsInvariant
  exact fun s t hs h => (stepMove_of_step h).keeps_Inv hs

/-- Settles O50: an idle block with no image and no listed cell meets the invariant, and `State.resetOf` gives the block
no part of its arguments. -/
theorem invariantAtReset : Obligations.InvariantAtReset := by
  unfold Obligations.InvariantAtReset
  exact ⟨State.resetOf_Inv _ _, fun p e => ⟨State.resetOf_Inv p e, rfl⟩⟩

end Sys2Proof.Machine

/-! ### What a step leaves unchanged: the image, the parameters, the inputs still to come (O15, O42, O48, O59) -/

namespace Sys2Proof.Machine

theorem State.drain_sameImage (s : State) (b : Byte) (rest : List Byte) : s.sameImage (s.drain b rest) := by
  rcases s.drain_cases b rest with ⟨-, e⟩ | ⟨-, e⟩ | ⟨-, e⟩ <;> rw [e] <;> exact ⟨rfl, rfl, rfl, rfl⟩

theorem State.hostTakes_sameImage (s : State) : s.sameImage s.hostTakes := by
  rcases s.hostTakes_cases with e | e <;> rw [e] <;> exact ⟨rfl, rfl, rfl, rfl⟩

/-- A command keeps the image, or is an `INIT` or a `SET`; and none clears `valid`. -/
theorem ExecMove.image {s t : State} {i : Instr} (h : ExecMove s i t) :
    (s.valid = true → t.valid = true) ∧
      (s.sameImage t ∨ (∃ a b, i = .init a b) ∨ ∃ a b c, i = .set a b c) := by
  cases h with
  | raise i st => exact ⟨id, .inl ⟨rfl, rfl, rfl, rfl⟩⟩
  | init hh hf => exact ⟨fun _ => rfl, .inr (.inl ⟨_, _, rfl⟩)⟩
  | set c hv hxy => exact ⟨id, .inr (.inr ⟨_, _, _, rfl⟩)⟩
  | get x y => exact ⟨id, .inl ⟨rfl, rfl, rfl, rfl⟩⟩
  | encode hv => exact ⟨id, .inl ⟨rfl, rfl, rfl, rfl⟩⟩

/-- With `rst` low a move keeps the image, or takes a command at an open port. -/
theorem StepMove.sameImage_or_command {s t : State} (h : StepMove s t) (hrst : s.rstHigh = false) :
    s.sameImage t ∨ s.phase = .idle ∧ s.rsp = none ∧
      ∃ w i, s.env.cmds.head? = some (some w) ∧ decode w = .ok i ∧ ExecMove s.passRst.passCmd i t := by
  cases h with
  | reset h => simp [hrst] at h
  | seqOnEmpty _ _ _ h => exact .inl h.frame.1
  | seqByChoice _ _ _ _ h => exact .inl h.frame.1
  | offer => exact .inl (s.passRst.drain_sameImage _ _)
  | offerByChoice => exact .inl (s.passRst.passSched.drain_sameImage _ _)
  | response => exact .inl s.passRst.hostTakes_sameImage
  | noWord => exact .inl ⟨rfl, rfl, rfl, rfl⟩
  | illegal => exact .inl ⟨rfl, rfl, rfl, rfl⟩
  | command _ hb hr hw hd h =>
    exact .inr ⟨State.busy_eq_false_iff.1 hb, hr, _, _, headD_none_eq_some.1 hw, hd, h⟩

/-- Settles O15: of the moves with `rst` low only a command taken can change the image, and of the commands only `INIT`
and `SET` do. -/
theorem imageChangesOnlyByInitSetReset : Obligations.ImageChangesOnlyByInitSetReset := by
  unfold Obligations.ImageChangesOnlyByInitSetReset
  intro s t h hrst
  rcases (stepMove_of_step h).sameImage_or_command hrst with himg | ⟨hp, hr, w, i, hw, hd, he⟩
  · exact ⟨himg.1.trans, .inl himg⟩
  · obtain ⟨hv, himg⟩ := he.image
    refine ⟨hv, ?_⟩
    rcases himg with himg | ⟨a, b, rfl⟩ | ⟨a, b, c, rfl⟩
    · exact .inl himg
    · exact .inr ⟨hp, hr, w, hw, .inl ⟨a, b, hd⟩⟩
    · exact .inr ⟨hp, hr, w, hw, .inr ⟨a, b, c, hd⟩⟩

/-- Settles O42: the bound on a push, and that every move of the sequencer appends its push. -/
theorem pushAtMostEight : Obligations.PushAtMostEight := by
  unfold Obligations.PushAtMostEight
  intro s
  have h8 := s.length_seqBytes_le
  exact ⟨h8, h8.trans (Nat.le_add_left _ _), fun t h => (seqMove_of_seqStep h).oq_eq⟩

/-- Settles O48: the reset state is `BlockState.reset` whatever its arguments. -/
theorem resetStateTable : Obligations.ResetStateTable := by
  unfold Obligations.ResetStateTable
  exact ⟨fun p e => by simp [BlockState.reset], _, _, rfl⟩

/-- An offer changes no parameter, uses one answer and delivers one byte at most. -/
theorem State.drain_outside (s : State) (b : Byte) (rest : List Byte) :
    (s.drain b rest).params = s.params ∧ ∃ bs, (s.drain b rest).env =
      { s.env with answers := s.env.answers.tail, stream := s.env.stream ++ bs } := by
  rcases s.drain_cases b rest with ⟨-, e⟩ | ⟨-, e⟩ | ⟨-, e⟩ <;> rw [e]
  · exact ⟨rfl, [], by simp⟩
  · exact ⟨rfl, [b], rfl⟩
  · exact ⟨rfl, [], by simp⟩

/-- The host's side of the response port changes no parameter, uses one readiness and delivers one response at most. -/
theorem State.hostTakes_outside (s : State) :
    s.hostTakes.params = s.params ∧ ∃ rs, s.hostTakes.env =
      { s.env with takes := s.env.takes.tail, received := s.env.received ++ rs } := by
  rcases s.hostTakes_cases with e | e <;> rw [e]
  · exact ⟨rfl, [], by simp⟩
  · exact ⟨rfl, _, rfl⟩

/-- What a move makes of the parameters and of the outside world. -/
theorem StepMove.consumed {s t : State} (h : StepMove s t) : t.params = s.params ∧ s.env.consumedTo t.env := by
  cases h with
  | reset => simp [Env.consumedTo]
  | seqOnEmpty _ _ _ h =>
    obtain ⟨-, hp, he⟩ := h.frame
    simp [Env.consumedTo, hp, he]
  | seqByChoice _ _ _ _ h =>
    obtain ⟨-, hp, he⟩ := h.frame
    simp [Env.consumedTo, hp, he]
  | @offer b rest _ _ _ =>
    obtain ⟨hp, bs, he⟩ := s.passRst.drain_outside b rest
    simp [Env.consumedTo, hp, he]
  | @offerByChoice b rest _ _ _ =>
    obtain ⟨hp, bs, he⟩ := s.passRst.passSched.drain_outside b rest
    simp [Env.consumedTo, hp, he]
  | response =>
    obtain ⟨hp, rs, he⟩ := s.passRst.hostTakes_outside
    simp [Env.consumedTo, hp, he]
  | noWord => simp [Env.consumedTo]
  | illegal => simp [Env.consumedTo, State.illegalWord]
  | command _ _ _ _ _ h =>
    obtain ⟨-, -, hp, he⟩ := h.frame
    simp [Env.consumedTo, hp, he]

/-- Settles O59: every move of the machine leaves the parameters, and uses of each list of inputs its head at most. -/
theorem inputsAreOnlyConsumed : Obligations.InputsAreOnlyConsumed := by
  unfold Obligations.InputsAreOnlyConsumed
  exact fun s t h => (stepMove_of_step h).consumed

end Sys2Proof.Machine

/-! ### The block's next state is a function of its state, the parameters and the inputs of the step (O58) -/

namespace Sys2Proof.Machine

/-- The states differ at most in the outside world: in what is still to come and in what has been delivered. -/
def State.sameBlock (s t : State) : Prop :=
  t.toBlockState = s.toBlockState ∧ t.params = s.params ∧ t.draws = s.draws

/-- The outcomes are of one kind: next states that differ at most in the outside world, or the same stop. -/
inductive SameOutcome : Host.Outcome State Fault Refusal → Host.Outcome State Fault Refusal → Prop
  | next {s t : State} (h : s.sameBlock t) : SameOutcome (.next s) (.next t)
  | fault (f : Fault) : SameOutcome (.fault f) (.fault f)
  | refused (r : Refusal) : SameOutcome (.refused r) (.refused r)

theorem State.sameBlock_iff {s t : State} : s.sameBlock t ↔ ∃ e, t = { s with env := e } := by
  constructor
  · rintro ⟨hb, hp, hd⟩
    exact ⟨t.env, by rw [← hb, ← hp, ← hd]⟩
  · rintro ⟨e, rfl⟩
    exact ⟨rfl, rfl, rfl⟩

theorem SameOutcome.ite {c : Prop} [Decidable c] {o₁ o₂ o₁' o₂' : Host.Outcome State Fault Refusal}
    (h₁ : SameOutcome o₁ o₁') (h₂ : SameOutcome o₂ o₂') :
    SameOutcome (if c then o₁ else o₂) (if c then o₁' else o₂') := by
  split
  · exact h₁
  · exact h₂

/-- No step of the sequencer looks at the outside world. -/
theorem seqStep_sameOutcome {s t : State} (h : s.sameBlock t) : SameOutcome (seqStep s) (seqStep t) := by
  obtain ⟨e, rfl⟩ := State.sameBlock_iff.1 h
  cases hp : s.phase <;> simp only [seqStep, hp]
  case idle => exact .next ⟨rfl, rfl, rfl⟩
  case stripBegin => exact .ite (.next ⟨rfl, rfl, rfl⟩) (.ite (.fault _) (.next ⟨rfl, rfl, rfl⟩))
  case colorBegin =>
    cases hc : s.clist[s.cidx.toNat]? <;> simp only [seqColorBegin, hc]
    · exact .next ⟨rfl, rfl, rfl⟩
    · exact .next ⟨rfl, rfl, rfl⟩
  case column => exact .ite (.ite (.fault _) (.next ⟨rfl, rfl, rfl⟩)) (.next ⟨rfl, rfl, rfl⟩)
  case stripEnd => exact .next ⟨rfl, rfl, rfl⟩
  case finish => exact .next ⟨rfl, rfl, rfl⟩

/-- Nor does the meaning of a command. -/
theorem exec_sameOutcome (i : Instr) {s t : State} (h : s.sameBlock t) : SameOutcome (exec i s) (exec i t) := by
  obtain ⟨e, rfl⟩ := State.sameBlock_iff.1 h
  cases i with
  | init w h => exact .ite (.next ⟨rfl, rfl, rfl⟩) (.ite (.next ⟨rfl, rfl, rfl⟩) (.next ⟨rfl, rfl, rfl⟩))
  | set x y c => exact .ite (.next ⟨rfl, rfl, rfl⟩) (.ite (.next ⟨rfl, rfl, rfl⟩) (.next ⟨rfl, rfl, rfl⟩))
  | get x y => exact .ite (.next ⟨rfl, rfl, rfl⟩) (.ite (.next ⟨rfl, rfl, rfl⟩) (.next ⟨rfl, rfl, rfl⟩))
  | encode => exact .ite (.next ⟨rfl, rfl, rfl⟩) (.next ⟨rfl, rfl, rfl⟩)

theorem State.sameBlock.drain {s t : State} (h : s.sameBlock t)
    (ha : t.env.answers.headD none = s.env.answers.headD none) (b : Byte) (rest : List Byte) :
    (s.drain b rest).sameBlock (t.drain b rest) := by
  obtain ⟨e, rfl⟩ := State.sameBlock_iff.1 h
  rw [State.drain, State.drain, ha]
  cases s.env.answers.headD none with
  | none => exact ⟨rfl, rfl, rfl⟩
  | some a =>
    cases a with
    | accept => exact ⟨rfl, rfl, rfl⟩
    | fail => exact ⟨rfl, rfl, rfl⟩

theorem State.sameBlock.hostTakes {s t : State} (h : s.sameBlock t)
    (ht : t.env.takes.headD false = s.env.takes.headD false) : s.hostTakes.sameBlock t.hostTakes := by
  obtain ⟨e, rfl⟩ := State.sameBlock_iff.1 h
  rw [State.hostTakes, State.hostTakes, ht]
  split
  · exact ⟨rfl, rfl, rfl⟩
  · exact ⟨rfl, rfl, rfl⟩

theorem State.sameBlock.illegalWord {s t : State} (h : s.sameBlock t) : s.illegalWord.sameBlock t.illegalWord := by
  obtain ⟨e, rfl⟩ := State.sameBlock_iff.1 h
  exact ⟨rfl, rfl, rfl⟩

theorem State.sameBlock.takeReset {s t : State} (h : s.sameBlock t) : s.takeReset.sameBlock t.takeReset := by
  obtain ⟨e, rfl⟩ := State.sameBlock_iff.1 h
  exact ⟨rfl, rfl, rfl⟩

theorem State.sameBlock.seqEnabled {s t : State} (h : s.sameBlock t) : t.seqEnabled = s.seqEnabled := by
  obtain ⟨e, rfl⟩ := State.sameBlock_iff.1 h
  rfl

/-- A step of a running ENCODE uses the sink's answer and the choice of the schedule, and nothing else. -/
theorem runBusy_sameOutcome {s t : State} (h : s.sameBlock t)
    (ha : t.env.answers.headD none = s.env.answers.headD none) (hs : t.seqFirst = s.seqFirst) :
    SameOutcome (runBusy s) (runBusy t) := by
  have hq : t.oq = s.oq := congrArg BlockState.oq h.1
  have ho : t.out = s.out := congrArg BlockState.out h.1
  simp only [runBusy, hq, ho, hs, h.seqEnabled]
  cases s.oq with
  | nil => exact seqStep_sameOutcome h
  | cons b rest =>
    have hd := SameOutcome.next (h.drain ha b rest)
    have hd' := SameOutcome.next (State.sameBlock.drain (s := s.passSched) (t := t.passSched) h ha b rest)
    exact .ite hd (.ite hd (.ite (seqStep_sameOutcome (s := s.passSched) (t := t.passSched) h) hd'))

/-- The open command port uses the word offered, and nothing else. -/
theorem commandPort_sameOutcome {s t : State} (h : s.sameBlock t) (hw : t.offeredWord = s.offeredWord) :
    SameOutcome (commandPort s) (commandPort t) := by
  have h' : s.passCmd.sameBlock t.passCmd := h
  simp only [commandPort, hw]
  cases s.offeredWord with
  | none => exact .next h'
  | some w =>
    cases hd : decode w with
    | error e => simpa only [hd] using .next h'.illegalWord
    | ok i => simpa only [hd] using exec_sameOutcome i h'

/-- A whole step uses the inputs of that step, and nothing else. -/
theorem step_sameOutcome {s t : State} (h : s.sameBlock t) (hin : t.inputs = s.inputs) :
    SameOutcome (step s) (step t) := by
  obtain ⟨hrst, hcmd, htake, hans, hsched⟩ : t.rstHigh = s.rstHigh ∧ t.offeredWord = s.offeredWord ∧
      t.env.takes.headD false = s.env.takes.headD false ∧
      t.env.answers.headD none = s.env.answers.headD none ∧ t.seqFirst = s.seqFirst := by
    simpa [State.inputs] using hin
  have h' : s.passRst.sameBlock t.passRst := h
  have hb : t.busy = s.busy := by rw [State.busy, State.busy, h.1]
  have hr : t.rsp = s.rsp := congrArg BlockState.rsp h.1
  cases hhigh : s.rstHigh with
  | true =>
    rw [step_of_rstHigh hhigh, step_of_rstHigh (hrst.trans hhigh)]
    exact .next h'.takeReset
  | false =>
    rw [step_of_rstLow hhigh, step_of_rstLow (hrst.trans hhigh)]
    cases hbusy : s.busy with
    | true =>
      rw [cycle_of_busy (s := s.passRst) hbusy, cycle_of_busy (s := t.passRst) (hb.trans hbusy)]
      exact runBusy_sameOutcome h' hans hsched
    | false =>
      by_cases hrsp : s.rsp = none
      · rw [cycle_of_open (s := s.passRst) hbusy hrsp,
          cycle_of_open (s := t.passRst) (hb.trans hbusy) (hr.trans hrsp)]
        exact commandPort_sameOutcome h' hcmd
      · rw [cycle_of_rsp (s := s.passRst) hbusy hrsp,
          cycle_of_rsp (s := t.passRst) (hb.trans hbusy) (hr.symm ▸ hrsp)]
        exact .next (h'.hostTakes htake)

/-- Settles O58: outcomes of one kind are the same next state of the block, or the same fault. -/
theorem blockStepsByItsInputs : Obligations.BlockStepsByItsInputs := by
  unfold Obligations.BlockStepsByItsInputs
  intro s t hblock hpar hdraws hin
  have h := step_sameOutcome ⟨hblock, hpar, hdraws⟩ hin
  constructor
  · intro s' hs
    rw [hs] at h
    generalize step t = o at h ⊢
    cases h with
    | next h => exact ⟨_, rfl, h.1, h.2.2⟩
  · intro f hs
    rw [hs] at h
    generalize step t = o at h ⊢
    cases h with
    | fault => rfl

end Sys2Proof.Machine

/-! ### The pixel memory, decimal numbers and the image under ENCODE (O14, O24, O43) -/

namespace Sys2Proof.Machine

theorem State.inImage_iff {s : State} {x y : Dim} :
    s.inImage x y = true ↔ x.toNat < s.width.toNat ∧ y.toNat < s.height.toNat := by
  simp [State.inImage]

/-- An infinite memory holds every image, a finite one those within its capacity (00_scope.md R6). -/
theorem Params.fits_iff {p : Params} {n : Nat} : p.fits n = true ↔ ∀ cap, p.pixcap = some cap → n ≤ cap := by
  unfold Params.fits
  split <;> simp [*]

/-- R31: the row of an address is its quotient by `width` and the column its remainder, so two pixels of the image do
not share a cell. -/
theorem State.pixAddr_inj {s : State} {x y x' y' : Dim} (h : s.inImage x y = true) (h' : s.inImage x' y' = true)
    (e : s.pixAddr x.toNat y.toNat = s.pixAddr x'.toNat y'.toNat) : x = x' ∧ y = y' := by
  obtain ⟨hx, -⟩ := State.inImage_iff.1 h
  obtain ⟨hx', -⟩ := State.inImage_iff.1 h'
  simp only [State.pixAddr] at e
  have hcol : x.toNat = x'.toNat := by
    simpa [Nat.mod_eq_of_lt hx, Nat.mod_eq_of_lt hx'] using congrArg (· % s.width.toNat) e
  have hrow : y.toNat = y'.toNat := Nat.eq_of_mul_eq_mul_right (Nat.zero_lt_of_lt hx) (by omega)
  exact ⟨BitVec.eq_of_toNat_eq hcol, BitVec.eq_of_toNat_eq hrow⟩

/-- Settles O14: the bound and the injectivity of the address, and the invariant's own part on the image's size. -/
theorem pixelAddressesDistinct : Obligations.PixelAddressesDistinct := by
  unfold Obligations.PixelAddressesDistinct
  intro s x y x' y' h h'
  refine ⟨rfl, State.pixAddr_lt h, fun hs hv => ?_, State.pixAddr_inj h h'⟩
  obtain ⟨himg, -, -, -⟩ := hs
  exact Params.fits_iff.1 (himg hv).2

theorem toNat_digit {d : Nat} (hd : d < 10) : (digit d).toNat = 48 + d := by
  simp only [digit, BitVec.toNat_ofNat]
  omega

/-- The byte is one of the ten digits (30_encoding.md R51). -/
def isDigit (b : Byte) : Bool := 48 ≤ b.toNat && b.toNat ≤ 57

theorem isDigit_iff {b : Byte} : isDigit b = true ↔ 48 ≤ b.toNat ∧ b.toNat ≤ 57 := by simp [isDigit]

theorem isDigit_digit {d : Nat} (hd : d < 10) : isDigit (digit d) = true :=
  isDigit_iff.2 (by rw [toNat_digit hd]; omega)

theorem isDigit_of_mem_decFuel {k n : Nat} {b : Byte} (h : b ∈ decFuel k n) : isDigit b = true := by
  have hlast (n : Nat) : isDigit (digit (n % 10)) = true := isDigit_digit (Nat.mod_lt _ (by decide))
  induction k generalizing n with
  | zero => rw [List.mem_singleton.1 h]; exact hlast n
  | succ k ih =>
    unfold decFuel at h
    split at h
    · rw [List.mem_singleton.1 h]; exact isDigit_digit ‹_›
    · rcases List.mem_append.1 h with h | h
      · exact ih h
      · rw [List.mem_singleton.1 h]; exact hlast n

/-- R53: a spelling is made of digits. -/
theorem isDigit_of_mem_dec {n : Nat} {b : Byte} (h : b ∈ dec n) : isDigit b = true := isDigit_of_mem_decFuel h

/-- The number that digits spell, most significant digit first. -/
def decValue (bs : List Byte) : Nat := bs.foldl (fun v b => 10 * v + (b.toNat - 48)) 0

theorem decValue_append_digit (bs : List Byte) {d : Nat} (hd : d < 10) :
    decValue (bs ++ [digit d]) = 10 * decValue bs + d := by
  simp [decValue, toNat_digit hd]

theorem decValue_decFuel {k n : Nat} (hk : n ≤ k) : decValue (decFuel k n) = n := by
  have hsingle : ∀ d < 10, decValue [digit d] = d := fun d hd => by simp [decValue, toNat_digit hd]
  induction k generalizing n with
  | zero =>
    obtain rfl : n = 0 := Nat.le_zero.1 hk
    exact hsingle 0 (by decide)
  | succ k ih =>
    unfold decFuel
    split
    · exact hsingle n ‹_›
    · rw [decValue_append_digit _ (Nat.mod_lt _ (by decide)), ih (by omega)]; omega

/-- R57: the spelling of a number reads back as that number. -/
theorem decValue_dec (n : Nat) : decValue (dec n) = n := decValue_decFuel le_rfl

theorem dec_injective : Function.Injective dec := Function.LeftInverse.injective decValue_dec

/-- The digits at the front of a spelling and a byte that is none are the spelling. -/
theorem takeWhile_isDigit_dec_append (n : Nat) {b : Byte} (bs : List Byte) (hb : isDigit b = false) :
    (dec n ++ b :: bs).takeWhile isDigit = dec n := by
  rw [List.takeWhile_append_of_pos fun _ => isDigit_of_mem_dec, List.takeWhile_cons_of_neg (by simp [hb]),
    List.append_nil]

/-- R37, R53: a number followed by a byte that is no digit is read in one way. -/
theorem dec_append_cons_inj {m n : Nat} {b c : Byte} {bs cs : List Byte} (hb : isDigit b = false)
    (hc : isDigit c = false) (h : dec m ++ b :: bs = dec n ++ c :: cs) : m = n ∧ b = c ∧ bs = cs := by
  have hdec : dec m = dec n := by
    simpa only [takeWhile_isDigit_dec_append _ _ hb, takeWhile_isDigit_dec_append _ _ hc] using
      congrArg (List.takeWhile isDigit) h
  rw [hdec] at h
  exact ⟨dec_injective hdec, List.cons.inj (List.append_cancel_left h)⟩

/-- Settles O24: the digits of a spelling, and the one reading of what a spelling begins. -/
theorem decimalSelfDelimiting : Obligations.DecimalSelfDelimiting := by
  unfold Obligations.DecimalSelfDelimiting
  have hnot : ∀ b : Byte, b.toNat < 48 ∨ 57 < b.toNat → isDigit b = false := fun b hb =>
    Bool.eq_false_iff.2 fun h => by have := isDigit_iff.1 h; omega
  exact ⟨fun n b h => isDigit_iff.1 (isDigit_of_mem_dec h),
    fun m n b c bs cs hb hc => dec_append_cons_inj (hnot b hb) (hnot c hc)⟩

/-- R43, at the start: of the moves of a command only those of `INIT` and `SET` touch the image. -/
theorem ExecMove.sameImage_of_encode {s t : State} (h : ExecMove s .encode t) : s.sameImage t := by
  obtain ⟨-, himg | ⟨a, b, he⟩ | ⟨a, b, c, he⟩⟩ := h.image
  · exact himg
  · cases he
  · cases he

/-- R43, while it runs: the command port is closed, so no command is there to change the image. -/
theorem StepMove.sameImage_of_busy {s t : State} (h : StepMove s t) (hb : s.busy = true) (hrst : s.rstHigh = false) :
    s.sameImage t := by
  rcases h.sameImage_or_command hrst with himg | ⟨hp, -⟩
  · exact himg
  · exact absurd hp (State.busy_eq_true_iff.1 hb)

/-- Settles O43: the start of an ENCODE is a move of that command, a later step a move of a busy block. -/
theorem encodeIsReadOnly : Obligations.EncodeIsReadOnly := by
  unfold Obligations.EncodeIsReadOnly
  exact ⟨fun s t h => (execMove_of_exec h).sameImage_of_encode,
    fun s t hb hrst h => (stepMove_of_step h).sameImage_of_busy hb hrst⟩

end Sys2Proof.Machine

/-! ### The command word: its fields, its decoder and its encoder (O1 to O7, O47) -/

namespace Sys2Proof.Machine

theorem toNat_append_eq {m n : Nat} (x : BitVec m) (y : BitVec n) :
    (x ++ y).toNat = x.toNat * 2 ^ n + y.toNat := by
  rw [BitVec.toNat_append, ← Nat.shiftLeft_add_eq_or_of_lt y.isLt, Nat.shiftLeft_eq]

/-- R46: the word as a number, field by field. -/
theorem toNat_wordOf (f : CmdFields) : (wordOf f).toNat =
    f.op.toNat * 2 ^ 60 + f.rsv.toNat * 2 ^ 48 + f.a.toNat * 2 ^ 32 + f.b.toNat * 2 ^ 16 + f.c.toNat := by
  simp only [wordOf, toNat_append_eq]
  omega

/-- R46: the fields of a word as numbers. -/
theorem toNat_fieldsOf (w : CmdWord) :
    (fieldsOf w).op.toNat = w.toNat / 2 ^ 60 ∧ (fieldsOf w).rsv.toNat = w.toNat / 2 ^ 48 % 2 ^ 12 ∧
    (fieldsOf w).a.toNat = w.toNat / 2 ^ 32 % 2 ^ 16 ∧ (fieldsOf w).b.toNat = w.toNat / 2 ^ 16 % 2 ^ 16 ∧
    (fieldsOf w).c.toNat = w.toNat % 2 ^ 16 := by
  have hw := w.isLt
  simp only [fieldsOf, BitVec.extractLsb'_toNat, Nat.shiftRight_eq_div_pow, Nat.pow_zero, Nat.div_one, and_true]
  exact Nat.mod_eq_of_lt (by omega)

/-- R46: the five fields have every bit of the word. -/
theorem wordOf_fieldsOf (w : CmdWord) : wordOf (fieldsOf w) = w := by
  obtain ⟨hop, hrsv, ha, hb, hc⟩ := toNat_fieldsOf w
  apply BitVec.eq_of_toNat_eq
  rw [toNat_wordOf, hop, hrsv, ha, hb, hc]
  omega

theorem CmdFields.eq_of_toNat_eq {f g : CmdFields} (hop : f.op.toNat = g.op.toNat) (hrsv : f.rsv.toNat = g.rsv.toNat)
    (ha : f.a.toNat = g.a.toNat) (hb : f.b.toNat = g.b.toNat) (hc : f.c.toNat = g.c.toNat) : f = g := by
  cases f
  cases g
  exact CmdFields.mk.injEq .. ▸ ⟨BitVec.eq_of_toNat_eq hop, BitVec.eq_of_toNat_eq hrsv, BitVec.eq_of_toNat_eq ha,
    BitVec.eq_of_toNat_eq hb, BitVec.eq_of_toNat_eq hc⟩

/-- R46: the fields of the word put together from five fields are those fields. -/
theorem fieldsOf_wordOf (f : CmdFields) : fieldsOf (wordOf f) = f := by
  obtain ⟨hop, hrsv, ha, hb, hc⟩ := toNat_fieldsOf (wordOf f)
  have hword := toNat_wordOf f
  have := f.rsv.isLt; have := f.a.isLt; have := f.b.isLt; have := f.c.isLt
  apply CmdFields.eq_of_toNat_eq <;> omega

theorem fieldsOf_inj {v w : CmdWord} : fieldsOf v = fieldsOf w ↔ v = w :=
  (Function.LeftInverse.injective wordOf_fieldsOf).eq_iff

theorem fieldsOf_encode (i : Instr) : fieldsOf (encode i) = CmdFields.ofInstr i := fieldsOf_wordOf _

/-- R49: fields pass the check when each of the three tests does. -/
theorem CmdFields.check_eq_none_iff {f : CmdFields} :
    f.check = none ↔ f.opOk = true ∧ f.rsvOk = true ∧ f.operandsOk = true := by
  unfold CmdFields.check
  cases f.opOk <;> cases f.rsvOk <;> cases f.operandsOk <;> simp

/-- R58: the fields of a command pass the check. -/
theorem CmdFields.check_ofInstr (i : Instr) : (CmdFields.ofInstr i).check = none := by
  cases i <;> rfl

theorem instrOf_ofInstr (i : Instr) : instrOf (CmdFields.ofInstr i) = .ok i := by
  cases i <;> rfl

/-- R46, R47: fields that pass the check are those of the command they are read as: what the command does not take as
an operand is zero. -/
theorem CmdFields.exists_eq_ofInstr {f : CmdFields} (h : f.check = none) : ∃ i, f = CmdFields.ofInstr i := by
  obtain ⟨op, rsv, a, b, c⟩ := f
  obtain ⟨hop, hrsv, hoperands⟩ := CmdFields.check_eq_none_iff.1 h
  obtain rfl : rsv = 0 := by simpa [CmdFields.rsvOk] using hrsv
  obtain ⟨h1, h4⟩ : 1 ≤ op.toNat ∧ op.toNat ≤ 4 := by simpa [CmdFields.opOk] using hop
  obtain rfl | rfl | rfl | rfl : op = 1 ∨ op = 2 ∨ op = 3 ∨ op = 4 := by bv_omega
  · obtain rfl : c = 0 := by simpa [CmdFields.operandsOk] using hoperands
    exact ⟨.init a b, rfl⟩
  · exact ⟨.set a b c, rfl⟩
  · obtain rfl : c = 0 := by simpa [CmdFields.operandsOk] using hoperands
    exact ⟨.get a b, rfl⟩
  · obtain ⟨⟨rfl, rfl⟩, rfl⟩ : (a = 0 ∧ b = 0) ∧ c = 0 := by simpa [CmdFields.operandsOk] using hoperands
    exact ⟨.encode, rfl⟩

theorem decode_of_fieldsOf {w : CmdWord} {i : Instr} (h : fieldsOf w = CmdFields.ofInstr i) : decode w = .ok i := by
  simp only [decode, h, CmdFields.check_ofInstr, instrOf_ofInstr]

/-- R47: a word decodes to a command exactly when its fields are the command's. -/
theorem decode_eq_ok_iff {w : CmdWord} {i : Instr} : decode w = .ok i ↔ fieldsOf w = CmdFields.ofInstr i := by
  refine ⟨fun h => ?_, decode_of_fieldsOf⟩
  cases hc : (fieldsOf w).check with
  | some e => simp [decode, hc] at h
  | none =>
    obtain ⟨j, hj⟩ := CmdFields.exists_eq_ofInstr hc
    rw [decode_of_fieldsOf hj] at h
    rw [hj, Except.ok.inj h]

/-- R49: a word is illegal exactly when its fields fail a test. -/
theorem decode_eq_error_iff {w : CmdWord} : (∃ e, decode w = .error e) ↔ (fieldsOf w).check ≠ none := by
  cases hc : (fieldsOf w).check with
  | some e => simp [decode, hc]
  | none =>
    obtain ⟨i, hi⟩ := CmdFields.exists_eq_ofInstr hc
    simp [decode_of_fieldsOf hi]

/-- Settles O1: the fields of a command's word are the command's. -/
theorem decodeOfEncode : Obligations.DecodeOfEncode := by
  unfold Obligations.DecodeOfEncode
  exact fun i => decode_of_fieldsOf (fieldsOf_encode i)

/-- Settles O2: the word and the command's word have the same fields. -/
theorem encodeOfDecode : Obligations.EncodeOfDecode := by
  unfold Obligations.EncodeOfDecode
  intro w i h
  rw [← fieldsOf_inj, fieldsOf_encode, decode_eq_ok_iff.1 h]

/-- A mask masks each field by its own. -/
theorem fieldsOf_and (v w : CmdWord) : fieldsOf (v &&& w) =
    { op := (fieldsOf v).op &&& (fieldsOf w).op, rsv := (fieldsOf v).rsv &&& (fieldsOf w).rsv
      a := (fieldsOf v).a &&& (fieldsOf w).a, b := (fieldsOf v).b &&& (fieldsOf w).b
      c := (fieldsOf v).c &&& (fieldsOf w).c } := by
  simp only [fieldsOf, BitVec.extractLsb'_and]

/-- R47: the mask of the commands with two operands keeps `OP`, `RSV` and `C`. -/
theorem fieldsOf_maskTwoOperands (w : CmdWord) :
    fieldsOf (w &&& 0xFFFF00000000FFFF) = { fieldsOf w with a := 0, b := 0 } := by
  have hmask : fieldsOf 0xFFFF00000000FFFF = ⟨BitVec.allOnes 4, BitVec.allOnes 12, 0, 0, BitVec.allOnes 16⟩ := by decide
  rw [fieldsOf_and, hmask]
  simp only [BitVec.and_allOnes, BitVec.ofNat_eq_ofNat, BitVec.and_zero]

/-- R47: the mask of the command with three operands keeps `OP` and `RSV`. -/
theorem fieldsOf_maskThreeOperands (w : CmdWord) :
    fieldsOf (w &&& 0xFFFF000000000000) = { fieldsOf w with a := 0, b := 0, c := 0 } := by
  have hmask : fieldsOf 0xFFFF000000000000 = ⟨BitVec.allOnes 4, BitVec.allOnes 12, 0, 0, 0⟩ := by decide
  rw [fieldsOf_and, hmask]
  simp only [BitVec.and_allOnes, BitVec.ofNat_eq_ofNat, BitVec.and_zero]

/-- R47, a row of the table with two operands: `op` is all of the match value. -/
theorem fieldsOf_eq_iff_maskTwoOperands {w m : CmdWord} {op : BitVec 4} (hm : fieldsOf m = ⟨op, 0, 0, 0, 0⟩)
    (a b : Dim) : fieldsOf w = ⟨op, 0, a, b, 0⟩ ↔
      w &&& 0xFFFF00000000FFFF = m ∧ a = w.extractLsb' 32 16 ∧ b = w.extractLsb' 16 16 := by
  rw [← fieldsOf_inj, fieldsOf_maskTwoOperands, hm]
  simp only [fieldsOf, CmdFields.mk.injEq]
  tauto

/-- R47, a row of the table with three operands. -/
theorem fieldsOf_eq_iff_maskThreeOperands {w m : CmdWord} {op : BitVec 4} (hm : fieldsOf m = ⟨op, 0, 0, 0, 0⟩)
    (a b c : Dim) : fieldsOf w = ⟨op, 0, a, b, c⟩ ↔
      w &&& 0xFFFF000000000000 = m ∧ a = w.extractLsb' 32 16 ∧ b = w.extractLsb' 16 16 ∧ c = w.extractLsb' 0 16 := by
  rw [← fieldsOf_inj, fieldsOf_maskThreeOperands, hm]
  simp only [fieldsOf, CmdFields.mk.injEq]
  tauto

/-- Settles O3: a word decodes to a command when its fields are the command's, and of these the mask keeps those that
the command fixes. -/
theorem decodeByMaskAndMatch : Obligations.DecodeByMaskAndMatch := by
  unfold Obligations.DecodeByMaskAndMatch
  intro w
  simp only [decode_eq_ok_iff]
  refine ⟨fun a b => ?init, fun a b c => ?set, fun a b => ?get, ?encode⟩
  case init => exact fieldsOf_eq_iff_maskTwoOperands (by decide) a b
  case set => exact fieldsOf_eq_iff_maskThreeOperands (by decide) a b c
  case get => exact fieldsOf_eq_iff_maskTwoOperands (by decide) a b
  case encode =>
    have hkeep : w &&& 0xFFFFFFFFFFFFFFFF = w := BitVec.and_allOnes
    rw [hkeep, ← fieldsOf_encode, fieldsOf_inj]
    rfl

/-- R46: the operand fields that must be zero, by operation code. -/
theorem CmdFields.operandsOk_iff {f : CmdFields} : f.operandsOk = true ↔
    (f.op.toNat = 1 ∨ f.op.toNat = 3 → f.c.toNat = 0) ∧
    (f.op.toNat = 4 → f.a.toNat = 0 ∧ f.b.toNat = 0 ∧ f.c.toNat = 0) := by
  unfold CmdFields.operandsOk
  split <;> simp_all [← BitVec.toNat_inj, and_assoc]

/-- R49: the fields of a legal command, as numbers. -/
theorem CmdFields.check_eq_none_iff_toNat {f : CmdFields} : f.check = none ↔
    (1 ≤ f.op.toNat ∧ f.op.toNat ≤ 4) ∧ f.rsv.toNat = 0 ∧
    (f.op.toNat = 1 ∨ f.op.toNat = 3 → f.c.toNat = 0) ∧
    (f.op.toNat = 4 → f.a.toNat = 0 ∧ f.b.toNat = 0 ∧ f.c.toNat = 0) := by
  rw [CmdFields.check_eq_none_iff, CmdFields.operandsOk_iff]
  simp [CmdFields.opOk, CmdFields.rsvOk, ← BitVec.toNat_inj]

/-- R49: the illegal words, as numbers. -/
theorem decode_eq_error_iff_toNat (w : CmdWord) : (∃ e, decode w = .error e) ↔
    (w.toNat / 2 ^ 60 = 0 ∨ 5 ≤ w.toNat / 2 ^ 60) ∨ w.toNat / 2 ^ 48 % 2 ^ 12 ≠ 0 ∨
    ((w.toNat / 2 ^ 60 = 1 ∨ w.toNat / 2 ^ 60 = 3) ∧ w.toNat % 2 ^ 16 ≠ 0) ∨
    (w.toNat / 2 ^ 60 = 4 ∧ w.toNat % 2 ^ 48 ≠ 0) := by
  obtain ⟨hop, hrsv, ha, hb, hc⟩ := toNat_fieldsOf w
  have hlow : w.toNat % 2 ^ 48 = 0 ↔
      w.toNat / 2 ^ 32 % 2 ^ 16 = 0 ∧ w.toNat / 2 ^ 16 % 2 ^ 16 = 0 ∧ w.toNat % 2 ^ 16 = 0 := by omega
  rw [decode_eq_error_iff, Ne, CmdFields.check_eq_none_iff_toNat, hop, hrsv, ha, hb, hc]
  omega

/-- R45: with `rst` low, the block idle and no response waiting, a step is one of the open command port. -/
theorem step_of_open {s : State} (hrst : s.rstHigh = false) (hp : s.phase = .idle) (hr : s.rsp = none) :
    step s = commandPort s.passRst := by
  rw [step_of_rstLow hrst]
  exact cycle_of_open (s := s.passRst) (State.busy_eq_false_iff.2 hp) hr

theorem commandPort_of_error {s : State} {w : CmdWord} {e : Illegal} (hw : s.env.cmds.head? = some (some w))
    (hd : decode w = .error e) : commandPort s = .next s.passCmd.illegalWord := by
  simp only [commandPort, State.offeredWord, headD_none_eq_some.2 hw, hd]

theorem commandPort_of_ok {s : State} {w : CmdWord} {i : Instr} (hw : s.env.cmds.head? = some (some w))
    (hd : decode w = .ok i) : commandPort s = exec i s.passCmd := by
  simp only [commandPort, State.offeredWord, headD_none_eq_some.2 hw, hd]

/-- R48: the layout of the response word. -/
theorem toNat_rspWord (st : Status) (d : Color) : (rspWord st d).toNat = st.code.toNat * 2 ^ 16 + d.toNat := by
  simp only [rspWord, toNat_append_eq]
  simp

/-- Settles O4: the test that a field fails, in numbers; and at the open port such a word is answered by `raise`. -/
theorem illegalWordAnswered : Obligations.IllegalWordAnswered := by
  unfold Obligations.IllegalWordAnswered
  refine ⟨decode_eq_error_iff_toNat, fun s w hrst hp hr hw ⟨e, hd⟩ => ?_⟩
  rw [step_of_open hrst hp hr, commandPort_of_error (s := s.passRst) hw hd]
  simp only [State.illegalWord, State.raise, State.respond, State.passCmd, State.passRst, hp]
  rfl

/-- Settles O5: five words, decoded. -/
theorem exampleWordsDecode : Obligations.ExampleWordsDecode := by
  unfold Obligations.ExampleWordsDecode
  decide

/-- Settles O6: the parts of the word as numbers. -/
theorem responseWordLayout : Obligations.ResponseWordLayout := by
  unfold Obligations.ResponseWordLayout
  exact ⟨toNat_rspWord, by decide⟩

/-- Settles O7: the command port's case of a word that decodes; and `withFetchWord` opens the port for its word. -/
theorem stepRunsDecodedWord : Obligations.StepRunsDecodedWord := by
  unfold Obligations.StepRunsDecodedWord
  refine ⟨fun s w i hrst hp hr hw hd => ?_, fun s w i hd => ?_⟩
  · rw [step_of_open hrst hp hr]
    exact commandPort_of_ok (s := s.passRst) hw hd
  · have hword : BitVec.ofNat 64 (w.toNat % 2 ^ 64) = w := by
      rw [BitVec.toNat_mod_cancel, BitVec.ofNat_toNat, BitVec.setWidth_eq]
    rw [State.withFetchWord, hword, step_of_rst_nil rfl, cycle_of_open (by rfl) rfl]
    exact commandPort_of_ok (s := s.offerWord w) rfl hd

/-- Settles O47: the host's side of the response port, by what stands at the head of its readiness. -/
theorem responseHandedOver : Obligations.ResponseHandedOver := by
  unfold Obligations.ResponseHandedOver
  intro s r hrst hp hr
  have hstep : step s = .next s.passRst.hostTakes := by
    rw [step_of_rstLow hrst]
    exact cycle_of_rsp (s := s.passRst) (State.busy_eq_false_iff.2 hp) (by simp [hr])
  refine ⟨fun ts ht => ?_, fun ts ht => ?_, fun ht => ?_⟩ <;> rw [hstep, State.hostTakes]
  · simp [ht, State.handOver, State.passTake, State.passRst, hr]
  · simp [ht, State.passTake, State.passRst]
  · simp [ht, State.passTake, State.passRst]

end Sys2Proof.Machine

/-! ### The spelling of a number (O23) -/

namespace Sys2Proof.Machine

/-- The bound on the divisions does not matter as soon as it reaches the number. -/
theorem decFuel_eq_decFuel {j k n : Nat} (hj : n ≤ j) (hk : n ≤ k) : decFuel j n = decFuel k n := by
  induction j generalizing k n with
  | zero =>
    obtain rfl : n = 0 := Nat.le_zero.1 hj
    cases k <;> rfl
  | succ j ih =>
    cases k with
    | zero =>
      obtain rfl : n = 0 := Nat.le_zero.1 hk
      rfl
    | succ k =>
      simp only [decFuel]
      split
      · rfl
      · rw [ih (k := k) (by omega) (by omega)]

theorem dec_of_lt_ten {n : Nat} (h : n < 10) : dec n = [digit n] := by
  cases n <;> simp [dec, decFuel, h]

theorem dec_of_ten_le {n : Nat} (h : 10 ≤ n) : dec n = dec (n / 10) ++ [digit (n % 10)] := by
  cases n with
  | zero => omega
  | succ m =>
    rw [dec, decFuel, if_neg (by omega), decFuel_eq_decFuel (k := (m + 1) / 10) (by omega) le_rfl]
    rfl

theorem dec_ne_nil (n : Nat) : dec n ≠ [] := by
  rcases Nat.lt_or_ge n 10 with h | h
  · simp [dec_of_lt_ten h]
  · simp [dec_of_ten_le h]

/-- Settles O23: the two equations of `dec`, and a bound on its length by the powers of ten. -/
theorem decimalSpelling : Obligations.DecimalSpelling := by
  unfold Obligations.DecimalSpelling
  exact ⟨fun n => dec_of_lt_ten, fun n => dec_of_ten_le, fun n hn =>
    ⟨List.length_pos_iff.2 (dec_ne_nil n), length_dec_le_five (Nat.lt_succ_of_le hn)⟩⟩

end Sys2Proof.Machine

/-! ### The grammar is self-delimiting (O32) -/

namespace Sys2Proof.Machine

/-- R53: a code whose words can be read back from the front of any byte string: the bytes of a legal word and some bytes
after it give back the word and the bytes. -/
def SelfDelimiting {α : Type} (ok : α → Prop) (enc : α → List Byte) : Prop :=
  ∀ ⦃a b : α⦄ ⦃r r' : List Byte⦄, ok a → ok b → enc a ++ r = enc b ++ r' → a = b ∧ r = r'

/-- The words of a self-delimiting code one after another, ended by a byte that begins none of them, are again
self-delimiting. -/
theorem SelfDelimiting.terminated {α : Type} {ok : α → Prop} {enc : α → List Byte} (h : SelfDelimiting ok enc) {z : Byte}
    (hz : ∀ a, ok a → ∃ b bs, enc a = b :: bs ∧ b ≠ z) :
    SelfDelimiting (fun as : List α => ∀ a ∈ as, ok a) (fun as => as.flatMap enc ++ [z]) := by
  intro as
  induction as with
  | nil =>
    rintro (_ | ⟨b, bs⟩) r r' - hbs e
    · exact ⟨rfl, (List.cons.inj e).2⟩
    · obtain ⟨x, xs, hb, hx⟩ := hz b (hbs b List.mem_cons_self)
      have hzx : z = x := by simpa [hb] using congrArg List.head? e
      exact absurd hzx.symm hx
  | cons a as ih =>
    rintro (_ | ⟨b, bs⟩) r r' has hbs e
    · obtain ⟨x, xs, ha, hx⟩ := hz a (has a List.mem_cons_self)
      have hxz : x = z := by simpa [ha] using congrArg List.head? e
      exact absurd hxz hx
    · simp only [List.flatMap_cons, List.append_assoc] at e
      obtain ⟨rfl, e⟩ := h (has a List.mem_cons_self) (hbs b List.mem_cons_self) e
      obtain ⟨rfl, rfl⟩ := ih (fun c hc => has c (List.mem_cons_of_mem _ hc))
        (fun c hc => hbs c (List.mem_cons_of_mem _ hc)) (by simpa using e)
      exact ⟨rfl, rfl⟩

/-- A color-run byte, by its range (30_encoding.md R50). -/
def isData (b : Byte) : Prop := 63 ≤ b.toNat ∧ b.toNat ≤ 126

/-- R53: a color-run byte is no digit, no `'!'` and no `'$'`. -/
theorem isData.kind {b : Byte} (h : isData b) : isDigit b = false ∧ b ≠ chBang ∧ b ≠ chDollar := by
  refine ⟨Bool.eq_false_iff.2 fun hd => ?_, ?_, ?_⟩
  · have := isDigit_iff.1 hd
    have := h.1
    omega
  · rintro rfl; exact absurd h.1 (by decide)
  · rintro rfl; exact absurd h.1 (by decide)

/-- R53: the first byte of a token is no digit and no `'$'`. -/
theorem Token.bytes_eq_cons {t : Token} (h : isData t.data) :
    ∃ b bs, t.bytes = b :: bs ∧ isDigit b = false ∧ b ≠ chDollar := by
  cases t with
  | literal b => exact ⟨b, [], rfl, h.kind.1, h.kind.2.2⟩
  | counted n b => exact ⟨chBang, _, rfl, by decide, by decide⟩

theorem Token.selfDelimiting : SelfDelimiting (fun t : Token => isData t.data) Token.bytes := by
  rintro (b | ⟨m, b⟩) (c | ⟨n, c⟩) r r' hb hc e
  · obtain ⟨rfl, rfl⟩ := List.cons.inj e
    exact ⟨rfl, rfl⟩
  · exact absurd (List.cons.inj e).1 hb.kind.2.1
  · exact absurd (List.cons.inj e).1.symm hc.kind.2.1
  · have hdec : dec m ++ b :: r = dec n ++ c :: r' := by simpa [Token.bytes] using e
    obtain ⟨rfl, rfl, rfl⟩ := dec_append_cons_inj hb.kind.1 hc.kind.1 hdec
    exact ⟨rfl, rfl⟩

/-- What follows the number of a color block: its tokens and its `'$'`. -/
def blockTail (ts : List Token) : List Byte := ts.flatMap Token.bytes ++ [chDollar]

theorem blockTail_selfDelimiting :
    SelfDelimiting (fun ts : List Token => ∀ t ∈ ts, isData t.data) blockTail :=
  Token.selfDelimiting.terminated fun _ h =>
    let ⟨b, bs, hb, _, hne⟩ := Token.bytes_eq_cons h
    ⟨b, bs, hb, hne⟩

/-- R53: a color's number ends where its block goes on. -/
theorem blockTail_eq_cons {ts : List Token} (h : ∀ t ∈ ts, isData t.data) :
    ∃ b bs, blockTail ts = b :: bs ∧ isDigit b = false := by
  cases ts with
  | nil => exact ⟨chDollar, [], rfl, by decide⟩
  | cons t ts =>
    obtain ⟨b, bs, hb, hd, -⟩ := Token.bytes_eq_cons (h t List.mem_cons_self)
    exact ⟨b, _, by rw [blockTail, List.flatMap_cons, hb]; rfl, hd⟩

theorem blockBytes_eq (b : Block) : blockBytes b = chHash :: (dec b.1.toNat ++ blockTail b.2) := by
  simp [blockBytes, blockTail]

theorem blockBytes_selfDelimiting :
    SelfDelimiting (fun b : Block => ∀ t ∈ b.2, isData t.data) blockBytes := by
  rintro ⟨c, ts⟩ ⟨d, us⟩ r r' hts hus e
  obtain ⟨x, xs, hx, hxd⟩ := blockTail_eq_cons hts
  obtain ⟨y, ys, hy, hyd⟩ := blockTail_eq_cons hus
  have hdec : dec c.toNat ++ x :: (xs ++ r) = dec d.toNat ++ y :: (ys ++ r') := by
    simpa [blockBytes_eq, hx, hy] using e
  obtain ⟨hcd, rfl, htail⟩ := dec_append_cons_inj hxd hyd hdec
  obtain ⟨rfl, rfl⟩ := blockTail_selfDelimiting hts hus (by rw [hx, hy, List.cons_append, List.cons_append, htail])
  exact ⟨congrArg (·, ts) (BitVec.eq_of_toNat_eq hcd), rfl⟩

/-- The bytes of a strip block (R52). -/
def stripBytes (strip : List Block) : List Byte := strip.flatMap blockBytes ++ [chDash]

theorem stripBytes_selfDelimiting :
    SelfDelimiting (fun strip : List Block => ∀ b ∈ strip, ∀ t ∈ b.2, isData t.data) stripBytes :=
  blockBytes_selfDelimiting.terminated fun b _ => ⟨chHash, _, rfl, by decide⟩

/-- A strip block begins with a color block or is the `'-'` alone. -/
theorem stripBytes_eq_cons (strip : List Block) : ∃ b bs, stripBytes strip = b :: bs ∧ b ≠ chDollar := by
  cases strip with
  | nil => exact ⟨chDash, [], rfl, by decide⟩
  | cons b strip => exact ⟨chHash, _, rfl, by decide⟩

/-- Settles O32: tokens, color blocks and strip blocks are each read in one way, and no strip block begins with a
`'$'`, so put after both streams it ends them. -/
theorem grammarSelfDelimiting : Obligations.GrammarSelfDelimiting := by
  unfold Obligations.GrammarSelfDelimiting
  intro d e hd he h
  have hdoc := stripBytes_selfDelimiting.terminated (z := chDollar) fun strip _ => stripBytes_eq_cons strip
  exact (hdoc (r := []) (r' := []) (fun strip hs b hb => (hd strip hs b hb).2)
    (fun strip hs b hb => (he strip hs b hb).2) (congrArg (· ++ [chDollar] ++ []) h)).1

end Sys2Proof.Machine

/-! ### The cut into maximal runs, and the tokens of a byte string (43_rle.md R94 to R97) -/

namespace Sys2Proof.Machine

theorem mem_head?_of_cons_prefix {α : Type} {a : α} {l l' : List α} (h : a :: l <+: l') : a ∈ l'.head? := by
  obtain ⟨t, rfl⟩ := h
  rfl

/-- A cut with a first run grows by one more byte of that run. -/
theorem cutsInto.extend {b : Byte} {n : Nat} {bs : List Byte} {rs : List (Byte × Nat)}
    (h : cutsInto bs ((b, n) :: rs)) : cutsInto (b :: bs) ((b, n + 1) :: rs) := by
  obtain ⟨hcut, hpos, hne⟩ := h
  refine ⟨?_, fun r hr => ?_, fun q r hqr => ?_⟩
  · rw [← hcut]; simp [List.replicate_succ]
  · rcases List.mem_cons.1 hr with rfl | hr
    · exact Nat.le_add_left 1 n
    · exact hpos r (List.mem_cons_of_mem _ hr)
  · rcases List.infix_cons_iff.1 hqr with hpre | hin
    · obtain ⟨rfl, htail⟩ := List.cons_prefix_cons.1 hpre
      exact hne (b, n) r (List.cons_prefix_cons.2 ⟨rfl, htail⟩).isInfix
    · exact hne q r (List.infix_cons hin)

/-- A byte unlike the first run begins a run of its own. -/
theorem cutsInto.start {b : Byte} {bs : List Byte} {rs : List (Byte × Nat)} (h : cutsInto bs rs)
    (hb : ∀ r ∈ rs.head?, b ≠ r.1) : cutsInto (b :: bs) ((b, 1) :: rs) := by
  obtain ⟨hcut, hpos, hne⟩ := h
  refine ⟨?_, fun r hr => ?_, fun q r hqr => ?_⟩
  · rw [← hcut]; rfl
  · rcases List.mem_cons.1 hr with rfl | hr
    · exact le_rfl
    · exact hpos r hr
  · rcases List.infix_cons_iff.1 hqr with hpre | hin
    · obtain ⟨rfl, htail⟩ := List.cons_prefix_cons.1 hpre
      exact hb r (mem_head?_of_cons_prefix htail)
    · exact hne q r hin

/-- R97: the runs of a byte string are a cut of it into maximal runs. -/
theorem cutsInto_runs (bs : List Byte) : cutsInto bs (runs bs) := by
  induction bs with
  | nil => exact ⟨rfl, by simp [runs], by simp [runs]⟩
  | cons b bs ih =>
    unfold runs
    split
    · rename_i hr
      exact (hr ▸ ih).start (by simp)
    · rename_i c n rs hr
      rw [hr] at ih
      split
      · subst b
        exact ih.extend
      · exact ih.start (by simpa)

/-- A run is of a byte of the string and no longer than the string. -/
theorem cutsInto.bounds {bs : List Byte} {rs : List (Byte × Nat)} (h : cutsInto bs rs) {r : Byte × Nat} (hr : r ∈ rs) :
    r.1 ∈ bs ∧ 1 ≤ r.2 ∧ r.2 ≤ bs.length := by
  obtain ⟨rfl, hpos, -⟩ := h
  have hsub : (List.replicate r.2 r.1).Sublist (rs.flatMap fun r => List.replicate r.2 r.1) :=
    List.sublist_flatten_of_mem (List.mem_map_of_mem hr)
  exact ⟨hsub.subset (List.mem_replicate.2 ⟨Nat.one_le_iff_ne_zero.1 (hpos r hr), rfl⟩), hpos r hr,
    by simpa using hsub.length_le⟩

/-- The tokens that a run is flushed to (R94). -/
def runTokens (r : Byte × Nat) : List Token :=
  if r.2 < Config.rleMin then List.replicate r.2 (.literal r.1) else [.counted r.2 r.1]

theorem flatMap_bytes_runTokens (r : Byte × Nat) : (runTokens r).flatMap Token.bytes = flush r.1 r.2 := by
  unfold runTokens flush
  split
  · simp [Token.bytes, List.flatMap_replicate]
  · simp [Token.bytes]

theorem flatMap_expand_runTokens (r : Byte × Nat) : (runTokens r).flatMap Token.expand = List.replicate r.2 r.1 := by
  unfold runTokens
  split
  · simp [Token.expand, List.flatMap_replicate]
  · simp [Token.expand]

theorem data_of_mem_runTokens {r : Byte × Nat} {t : Token} (h : t ∈ runTokens r) : t.data = r.1 := by
  unfold runTokens at h
  split at h
  · rw [List.eq_of_mem_replicate h]; rfl
  · rw [List.mem_singleton.1 h]; rfl

theorem counted_of_mem_runTokens {r : Byte × Nat} {n : Nat} {d : Byte} (h : Token.counted n d ∈ runTokens r) :
    3 ≤ n ∧ n = r.2 := by
  unfold runTokens at h
  split at h
  · cases List.eq_of_mem_replicate h
  · cases List.mem_singleton.1 h
    exact ⟨Nat.le_of_not_lt ‹_›, rfl⟩

theorem runTokens_ne_nil {r : Byte × Nat} (h : 1 ≤ r.2) : runTokens r ≠ [] := by
  unfold runTokens
  split
  · simpa using Nat.one_le_iff_ne_zero.1 h
  · simp

/-- The tokens of a byte string (30_encoding.md R54): those of its maximal runs. -/
def tokensOf (bs : List Byte) : List Token := (runs bs).flatMap runTokens

theorem flatMap_bytes_tokensOf (bs : List Byte) : (tokensOf bs).flatMap Token.bytes = rle bs := by
  simp only [tokensOf, rle, List.flatMap_assoc, flatMap_bytes_runTokens]

/-- R54: the expansion law. -/
theorem flatMap_expand_tokensOf (bs : List Byte) : (tokensOf bs).flatMap Token.expand = bs := by
  simp only [tokensOf, List.flatMap_assoc, flatMap_expand_runTokens]
  exact (cutsInto_runs bs).1

theorem tokensOf_ne_nil {bs : List Byte} (h : bs ≠ []) : tokensOf bs ≠ [] := fun hts =>
  h (by rw [← flatMap_expand_tokensOf bs, hts, List.flatMap_nil])

theorem data_mem_of_mem_tokensOf {bs : List Byte} {t : Token} (h : t ∈ tokensOf bs) : t.data ∈ bs := by
  obtain ⟨r, hr, ht⟩ := List.mem_flatMap.1 h
  rw [data_of_mem_runTokens ht]
  exact ((cutsInto_runs bs).bounds hr).1

/-- R55 (a). -/
theorem counted_bounds_of_mem_tokensOf {bs : List Byte} {n : Nat} {d : Byte} (h : Token.counted n d ∈ tokensOf bs) :
    3 ≤ n ∧ n ≤ bs.length := by
  obtain ⟨r, hr, ht⟩ := List.mem_flatMap.1 h
  obtain ⟨hn, rfl⟩ := counted_of_mem_runTokens ht
  exact ⟨hn, ((cutsInto_runs bs).bounds hr).2.2⟩

/-! ### Neighbouring tokens (30_encoding.md R55 (b), (c)) -/

theorem neighboursOk_nil : neighboursOk [] := ⟨by simp, by simp⟩

/-- A token before one of another data byte. -/
theorem neighboursOk.cons {t : Token} {ts : List Token} (h : neighboursOk ts) (ht : ∀ u ∈ ts.head?, u.data ≠ t.data) :
    neighboursOk (t :: ts) := by
  obtain ⟨htwo, hthree⟩ := h
  refine ⟨fun u v huv hd => ?_, fun b hb => ?_⟩
  · rcases List.infix_cons_iff.1 huv with hpre | hin
    · obtain ⟨rfl, htail⟩ := List.cons_prefix_cons.1 hpre
      exact absurd hd.symm (ht v (mem_head?_of_cons_prefix htail))
    · exact htwo u v hin hd
  · rcases List.infix_cons_iff.1 hb with hpre | hin
    · obtain ⟨rfl, htail⟩ := List.cons_prefix_cons.1 hpre
      exact ht _ (mem_head?_of_cons_prefix htail) rfl
    · exact hthree b hin

/-- A run of two, before a token of another data byte. -/
theorem neighboursOk.cons_literal_twice {b : Byte} {ts : List Token} (h : neighboursOk ts)
    (hb : ∀ u ∈ ts.head?, u.data ≠ b) : neighboursOk (.literal b :: .literal b :: ts) := by
  obtain ⟨htwo, hthree⟩ := h.cons (t := .literal b) hb
  refine ⟨fun u v huv hd => ?_, fun c hc => ?_⟩
  · rcases List.infix_cons_iff.1 huv with hpre | hin
    · obtain ⟨rfl, htail⟩ := List.cons_prefix_cons.1 hpre
      obtain ⟨rfl, -⟩ := List.cons_prefix_cons.1 htail
      exact ⟨⟨b, rfl⟩, b, rfl⟩
    · exact htwo u v hin hd
  · rcases List.infix_cons_iff.1 hc with hpre | hin
    · obtain ⟨hcb, htail⟩ := List.cons_prefix_cons.1 hpre
      obtain ⟨-, htail⟩ := List.cons_prefix_cons.1 htail
      exact hb _ (mem_head?_of_cons_prefix htail) (Token.literal.inj hcb : c = b)
    · exact hthree c hin

/-- The tokens of a run, before those of a run of another byte. -/
theorem neighboursOk.runTokens_append {r : Byte × Nat} {ts : List Token} (h : neighboursOk ts)
    (hr : ∀ u ∈ ts.head?, u.data ≠ r.1) : neighboursOk (runTokens r ++ ts) := by
  obtain ⟨b, n⟩ := r
  match n with
  | 0 => exact h
  | 1 => exact h.cons hr
  | 2 => exact h.cons_literal_twice hr
  | n + 3 =>
    have hlong : runTokens (b, n + 3) = [.counted (n + 3) b] := if_neg (Nat.not_lt.2 (Nat.le_add_left 3 n))
    rw [hlong]
    exact h.cons hr

/-- The first token of some runs is of the first run's byte. -/
theorem data_of_mem_head?_flatMap_runTokens {r : Byte × Nat} {rs : List (Byte × Nat)} (h : 1 ≤ r.2) {t : Token}
    (ht : t ∈ ((r :: rs).flatMap runTokens).head?) : t.data = r.1 := by
  rw [List.flatMap_cons, List.head?_append_of_ne_nil _ (runTokens_ne_nil h)] at ht
  exact data_of_mem_runTokens (List.mem_of_mem_head? ht)

theorem neighboursOk_flatMap_runTokens {rs : List (Byte × Nat)} (hpos : ∀ r ∈ rs, 1 ≤ r.2)
    (hne : ∀ q r, [q, r] <:+: rs → q.1 ≠ r.1) : neighboursOk (rs.flatMap runTokens) := by
  induction rs with
  | nil => exact neighboursOk_nil
  | cons r rs ih =>
    refine (ih (fun q hq => hpos q (List.mem_cons_of_mem _ hq))
      (fun p q hpq => hne p q (List.infix_cons hpq))).runTokens_append fun u hu => ?_
    cases rs with
    | nil => simp at hu
    | cons q rs =>
      rw [data_of_mem_head?_flatMap_runTokens (hpos q (by simp)) hu]
      exact (hne r q (List.prefix_append [r, q] rs).isInfix).symm

/-- R55 (b), (c). -/
theorem neighboursOk_tokensOf (bs : List Byte) : neighboursOk (tokensOf bs) := by
  obtain ⟨-, hpos, hne⟩ := cutsInto_runs bs
  exact neighboursOk_flatMap_runTokens hpos hne

end Sys2Proof.Machine

/-! ### The stream as a sentence of the grammar (O31), and its bytes (O30) -/

namespace Sys2Proof.Machine

/-- The color block of color `c` in strip `k`, as its color and tokens. -/
def State.blockOf (s : State) (k : Nat) (c : Color) : Block := (c, tokensOf (s.crbsFrom k c 0))

/-- The strip block of strip `k`, as its color blocks. -/
def State.stripOf (s : State) (k : Nat) : List Block := (s.colors k).map (s.blockOf k)

/-- The stream of the image, as its strip blocks. -/
def State.docOf (s : State) : List (List Block) := (List.range s.strips).map s.stripOf

theorem State.blockBytes_blockOf (s : State) (k : Nat) (c : Color) :
    blockBytes (s.blockOf k c) = s.colorBlock k c := by
  simp only [blockBytes, State.blockOf, State.colorBlock, flatMap_bytes_tokensOf]

theorem State.streamBytes_docOf (s : State) : streamBytes s.docOf = s.encodeImage := by
  have hstrip : ∀ k, (s.stripOf k).flatMap blockBytes ++ [chDash] = s.stripBlock k := fun k => by
    simp only [State.stripOf, State.stripBlock, List.flatMap_map, State.blockBytes_blockOf]
  simp only [streamBytes, State.docOf, List.flatMap_map, hstrip, State.encodeImage, State.stripsFrom,
    List.range_eq_range', Nat.sub_zero]

theorem State.length_crbsFrom_zero (s : State) (k : Nat) (c : Color) : (s.crbsFrom k c 0).length = s.width.toNat := by
  simp [State.crbsFrom]

/-- R87: the color-run bytes of a color are data bytes. -/
theorem State.isData_of_mem_crbsFrom {s : State} {k : Nat} {c : Color} {x : Nat} {b : Byte}
    (h : b ∈ s.crbsFrom k c x) : isData b := by
  obtain ⟨y, -, rfl⟩ := List.mem_map.1 h
  exact s.toNat_crb_bounds k c y

/-- R81: a strip of no columns has no color. -/
theorem State.width_pos_of_mem_colors {s : State} {k : Nat} {c : Color} (h : c ∈ s.colors k) : 0 < s.width.toNat :=
  Nat.pos_of_ne_zero fun hw => by
    have hscan : s.scan k = [] := by simp [State.scan, hw]
    simp [State.colors, hscan, discover] at h

/-- R52: the blocks have tokens and their data bytes are color-run bytes. -/
theorem State.dataOk_docOf (s : State) : dataOk s.docOf := by
  intro strip hstrip b hb
  obtain ⟨k, -, rfl⟩ := List.mem_map.1 hstrip
  obtain ⟨c, hc, rfl⟩ := List.mem_map.1 hb
  refine ⟨tokensOf_ne_nil (List.ne_nil_of_length_pos ?_), fun t ht => ?_⟩
  · rw [State.length_crbsFrom_zero]; exact s.width_pos_of_mem_colors hc
  · exact State.isData_of_mem_crbsFrom (data_mem_of_mem_tokensOf ht)

/-- Settles O31: the document that has a strip block for each strip, in it a color block for each discovered color, and
in that the tokens of the color's maximal runs. -/
theorem streamMeetsGrammar : Obligations.StreamMeetsGrammar := by
  unfold Obligations.StreamMeetsGrammar
  refine fun s => ⟨s.docOf, s.streamBytes_docOf.symm, s.dataOk_docOf, by simp [State.docOf], fun k strip hk => ?_⟩
  obtain rfl : s.stripOf k = strip := by
    rw [State.docOf, List.getElem?_map, Option.map_eq_some_iff] at hk
    obtain ⟨j, hj, rfl⟩ := hk
    obtain ⟨_, hkj⟩ := List.getElem?_eq_some_iff.1 hj
    rw [← hkj, List.getElem_range]
  refine ⟨by simp [State.stripOf, State.blockOf, Function.comp_def], fun b hb => ?_⟩
  obtain ⟨c, -, rfl⟩ := List.mem_map.1 hb
  refine ⟨flatMap_expand_tokensOf _, neighboursOk_tokensOf _, fun n d hd => ?_⟩
  rw [← s.length_crbsFrom_zero k c]
  exact counted_bounds_of_mem_tokensOf hd

/-- The six kinds of byte (30_encoding.md R50). -/
def isStreamByte (b : Byte) : Prop :=
  b.toNat = 35 ∨ b.toNat = 33 ∨ (48 ≤ b.toNat ∧ b.toNat ≤ 57) ∨ (63 ≤ b.toNat ∧ b.toNat ≤ 126) ∨
    b.toNat = 36 ∨ b.toNat = 45

theorem isStreamByte_of_mem_dec {n : Nat} {b : Byte} (h : b ∈ dec n) : isStreamByte b :=
  .inr (.inr (.inl (isDigit_iff.1 (isDigit_of_mem_dec h))))

theorem isData.isStreamByte {b : Byte} (h : isData b) : isStreamByte b := .inr (.inr (.inr (.inl h)))

theorem isStreamByte_of_mem_token {t : Token} (ht : isData t.data) {b : Byte} (h : b ∈ t.bytes) : isStreamByte b := by
  cases t with
  | literal d => rw [List.mem_singleton.1 h]; exact ht.isStreamByte
  | counted n d =>
    simp only [Token.bytes, List.mem_cons, List.mem_append, List.not_mem_nil, or_false] at h
    rcases h with rfl | hn | rfl
    · exact .inr (.inl rfl)
    · exact isStreamByte_of_mem_dec hn
    · exact ht.isStreamByte

theorem isStreamByte_of_mem_block {b : Block} (hb : ∀ t ∈ b.2, isData t.data) {x : Byte} (h : x ∈ blockBytes b) :
    isStreamByte x := by
  simp only [blockBytes, List.mem_cons, List.mem_append, List.not_mem_nil, or_false, List.mem_flatMap] at h
  rcases h with rfl | (hn | ⟨t, ht, hx⟩) | rfl
  · exact .inl rfl
  · exact isStreamByte_of_mem_dec hn
  · exact isStreamByte_of_mem_token (hb t ht) hx
  · exact .inr (.inr (.inr (.inr (.inl rfl))))

/-- R50: a sentence of the grammar is made of the six kinds of byte. -/
theorem isStreamByte_of_mem_streamBytes {doc : List (List Block)} (hdoc : dataOk doc) {x : Byte}
    (h : x ∈ streamBytes doc) : isStreamByte x := by
  obtain ⟨strip, hs, hx⟩ := List.mem_flatMap.1 h
  rcases List.mem_append.1 hx with hx | hx
  · obtain ⟨b, hb, hx⟩ := List.mem_flatMap.1 hx
    exact isStreamByte_of_mem_block (hdoc strip hs b hb).2 hx
  · rw [List.mem_singleton.1 hx]
    exact .inr (.inr (.inr (.inr (.inr rfl))))

/-- Settles O30: the stream is a sentence of the grammar. -/
theorem streamByteKinds : Obligations.StreamByteKinds := by
  unfold Obligations.StreamByteKinds
  intro s b hb
  rw [← s.streamBytes_docOf] at hb
  exact isStreamByte_of_mem_streamBytes s.dataOk_docOf hb

end Sys2Proof.Machine

/-! ### The image commands: their words, their outcomes, and the pixels they leave (O8 to O13) -/

namespace Sys2Proof.Machine

/-! #### The answer `OK` -/

/-- R48: the code of `OK` is 0, so the word of an `OK` is its data. -/
theorem rspWord_ok (d : Color) : rspWord .ok d = BitVec.ofNat 32 d.toNat := by
  have := d.isLt
  apply BitVec.eq_of_toNat_eq
  rw [toNat_rspWord, BitVec.toNat_ofNat, Nat.mod_eq_of_lt (by omega)]
  simp [Status.code]

/-! #### The tests of the commands -/

theorem heightOk_iff {h : Dim} : heightOk h = true ↔ h.toNat % 6 = 0 := by simp [heightOk]

theorem heightOk_eq_false_iff {h : Dim} : heightOk h = false ↔ h.toNat % 6 ≠ 0 := by simp [heightOk]

theorem Params.fits_eq_false_iff {p : Params} {n : Nat} :
    p.fits n = false ↔ ∃ cap, p.pixcap = some cap ∧ cap < n := by
  simp [← Bool.not_eq_true, Params.fits_iff]

theorem State.inImage_eq_false_iff {s : State} {x y : Dim} :
    s.inImage x y = false ↔ s.width.toNat ≤ x.toNat ∨ s.height.toNat ≤ y.toNat := by
  rw [← Bool.not_eq_true, State.inImage_iff]
  omega

/-! #### The outcomes, one equation each -/

section
variable {w h x y : Dim} {c : Color} {s : State}

theorem exec_init_badHeight (hh : heightOk h = false) : exec (.init w h) s = .next (s.raise .errDim) := by
  simp [exec, execInit, hh]

theorem exec_init_tooLarge (hh : heightOk h = true) (hf : s.params.fits (cellCount w h) = false) :
    exec (.init w h) s = .next (s.raise .errCapacity) := by
  simp [exec, execInit, hh, hf]

theorem exec_init_ok (hh : heightOk h = true) (hf : s.params.fits (cellCount w h) = true) :
    exec (.init w h) s = .next ((s.newImage w h).respond .ok 0) := by
  simp [exec, execInit, hh, hf]

theorem exec_set_noImage (hv : s.valid = false) : exec (.set x y c) s = .next (s.raise .errNoImage) := by
  simp [exec, execSet, hv]

theorem exec_set_outside (hv : s.valid = true) (hxy : s.inImage x y = false) :
    exec (.set x y c) s = .next (s.raise .errBounds) := by
  simp [exec, execSet, hv, hxy]

theorem exec_set_ok (hv : s.valid = true) (hxy : s.inImage x y = true) :
    exec (.set x y c) s = .next ((s.pixWrite x.toNat y.toNat c).respond .ok 0) := by
  simp [exec, execSet, hv, hxy]

theorem exec_get_noImage (hv : s.valid = false) : exec (.get x y) s = .next (s.raise .errNoImage) := by
  simp [exec, execGet, hv]

theorem exec_get_outside (hv : s.valid = true) (hxy : s.inImage x y = false) :
    exec (.get x y) s = .next (s.raise .errBounds) := by
  simp [exec, execGet, hv, hxy]

theorem exec_get_ok (hv : s.valid = true) (hxy : s.inImage x y = true) :
    exec (.get x y) s = .next (s.respond .ok (s.pixRead x.toNat y.toNat)) := by
  simp [exec, execGet, hv, hxy]

end

/-- Settles O8: the three outcomes of `INIT`, the cells of the last by the law of the zero-fill. -/
theorem initConstructsImage : Obligations.InitConstructsImage := by
  unfold Obligations.InitConstructsImage
  refine fun w h s => ⟨by simp [encode, toNat_wordOf, CmdFields.ofInstr],
    fun hh => exec_init_badHeight (heightOk_eq_false_iff.2 hh),
    fun hh hcap => exec_init_tooLarge (heightOk_iff.2 hh) (Params.fits_eq_false_iff.2 hcap), fun hh hcap => ?_⟩
  refine ⟨_, exec_init_ok (heightOk_iff.2 hh) (Params.fits_iff.2 hcap), fun a ha => ?_, fun a ha => ?_⟩
  · exact (Memory.read_zeroFill _ _ _).trans (if_pos ha)
  · exact (Memory.read_zeroFill _ _ _).trans (if_neg (Nat.not_lt.2 ha))

/-- Settles O9: the three outcomes of `SET`, the cells of the last by the law of a write. -/
theorem setWritesOneCell : Obligations.SetWritesOneCell := by
  unfold Obligations.SetWritesOneCell
  refine fun x y c s hwf => ⟨by simp [encode, toNat_wordOf, CmdFields.ofInstr], exec_set_noImage,
    fun hv hxy => exec_set_outside hv (State.inImage_eq_false_iff.2 hxy), fun hv hx hy => ?_⟩
  refine ⟨_, exec_set_ok hv (State.inImage_iff.2 ⟨hx, hy⟩), ?_, fun a ha => ?_⟩
  · exact (Memory.read_write hwf _ _ _).trans (if_pos rfl)
  · exact (Memory.read_write hwf _ _ _).trans (if_neg ha)

/-- Settles O10: the three outcomes of `GET`. -/
theorem getReadsOneCell : Obligations.GetReadsOneCell := by
  unfold Obligations.GetReadsOneCell
  refine fun x y s => ⟨by simp [encode, toNat_wordOf, CmdFields.ofInstr], exec_get_noImage,
    fun hv hxy => exec_get_outside hv (State.inImage_eq_false_iff.2 hxy), fun hv hx hy => ?_⟩
  rw [exec_get_ok hv (State.inImage_iff.2 ⟨hx, hy⟩), State.respond, rspWord_ok]
  rfl

/-! #### One pixel written, the others left -/

/-- A read at another address than the one written gives what it gave before, canonical form or not. -/
theorem Memory.read_write_of_ne {a b : Nat} (h : b ≠ a) (m : Memory) (v : Color) :
    Memory.read (Memory.write m a v) b = Memory.read m b := by
  have hcons (l : Memory) : Memory.read (Memory.consCell a v l) b = Memory.read l b := by
    unfold Memory.consCell
    split
    · rfl
    · exact if_neg h
  induction m with
  | nil => exact hcons []
  | cons d m ih =>
    obtain ⟨e, u⟩ := d
    simp only [Memory.write]
    split
    · exact hcons _
    · split
      · rename_i hae
        exact (hcons m).trans (if_neg (hae ▸ h)).symm
      · simp only [Memory.read, ih]

/-- R32: in a canonical memory a pixel written reads as written. -/
theorem State.pixRead_pixWrite_same {s : State} (hwf : Memory.wf s.pix) (x y : Nat) (c : Color) :
    (s.pixWrite x y c).pixRead x y = c :=
  (Memory.read_write hwf _ _ _).trans (if_pos rfl)

/-- R31, R69: two pixels of the image have two cells, so one written leaves the other. -/
theorem State.pixRead_pixWrite_of_ne {s : State} {x y x' y' : Dim} (h : s.inImage x y = true)
    (h' : s.inImage x' y' = true) (hne : (x', y') ≠ (x, y)) (c : Color) :
    (s.pixWrite x.toNat y.toNat c).pixRead x'.toNat y'.toNat = s.pixRead x'.toNat y'.toNat :=
  Memory.read_write_of_ne (fun e => hne (Prod.ext_iff.2 (State.pixAddr_inj h' h e))) _ _

/-- Settles O13: a `SET` raises an error or writes its one pixel; and `GET` and `ENCODE` leave the whole image. -/
theorem pixelFrame : Obligations.PixelFrame := by
  unfold Obligations.PixelFrame
  refine ⟨fun x y c s t h => ?_, fun x y s t h => ?_, fun s t h => ?_, fun s t hb hrst h => ?_⟩
  · cases execMove_of_exec h with
    | raise => exact ⟨fun _ _ _ _ _ _ => rfl, fun _ => rfl⟩
    | set _ hv hxy =>
      exact ⟨fun _ _ x' y' hxy' hne => State.pixRead_pixWrite_of_ne hxy hxy' hne c,
        fun hbad => by simp [hv, hxy] at hbad⟩
  · cases execMove_of_exec h <;> rfl
  · obtain ⟨-, -, -, hp⟩ := (execMove_of_exec h).sameImage_of_encode
    exact hp
  · obtain ⟨-, -, -, hp⟩ := (stepMove_of_step h).sameImage_of_busy hb hrst
    exact hp

/-! #### A pixel that keeps its color -/

/-- An image exists with the pixel `(x, y)` in it, and that pixel has color `c`. -/
def State.shows (s : State) (x y : Dim) (c : Color) : Prop :=
  s.valid = true ∧ s.inImage x y = true ∧ s.pixRead x.toNat y.toNat = c

section
variable {x y : Dim} {c : Color} {s t : State} {i : Instr}

theorem State.shows.congr (h : s.shows x y c) (himg : s.sameImage t) : t.shows x y c := by
  obtain ⟨hv, hxy, hc⟩ := h
  obtain ⟨hv', hw, hh, hp⟩ := himg
  exact ⟨hv'.trans hv, by simpa only [State.inImage, hw, hh] using hxy, by rw [State.pixRead_congr hw hp, hc]⟩

/-- R67. -/
theorem State.shows.exec_get (h : s.shows x y c) : exec (.get x y) s = .next (s.respond .ok c) := by
  obtain ⟨hv, hxy, rfl⟩ := h
  exact exec_get_ok hv hxy

theorem exec_set_shows (hwf : Memory.wf s.pix) (hv : s.valid = true) (hxy : s.inImage x y = true) (c : Color) :
    ∃ t, exec (.set x y c) s = .next t ∧ t.shows x y c :=
  ⟨_, exec_set_ok hv hxy, hv, hxy, State.pixRead_pixWrite_same hwf _ _ c⟩

/-- The cell of a pixel of the new image is one of those filled with 0. -/
theorem exec_init_shows {w h : Dim} (hh : heightOk h = true) (hf : s.params.fits (cellCount w h) = true)
    (hx : x.toNat < w.toNat) (hy : y.toNat < h.toNat) : ∃ t, exec (.init w h) s = .next t ∧ t.shows x y 0 := by
  have hxy : (s.newImage w h).inImage x y = true := State.inImage_iff.2 ⟨hx, hy⟩
  exact ⟨_, exec_init_ok hh hf, rfl, hxy, (Memory.read_zeroFill _ _ _).trans (if_pos (State.pixAddr_lt hxy))⟩

/-- A command that neither constructs an image nor writes the pixel leaves its color. -/
theorem ExecMove.shows (h : ExecMove s i t) (hi : leavesPixel x y i = true) (hs : s.shows x y c) : t.shows x y c := by
  cases h with
  | raise => exact hs
  | init => simp [leavesPixel] at hi
  | @set x' y' c' hv hxy' =>
    obtain ⟨hv, hxy, hc⟩ := hs
    have hne : (x, y) ≠ (x', y') := fun e => by cases e; simp [leavesPixel] at hi
    exact ⟨hv, hxy, (State.pixRead_pixWrite_of_ne hxy' hxy hne c').trans hc⟩
  | get => exact hs
  | encode => exact hs

/-- So does a step that resets nothing and takes no such command. -/
theorem StepMove.shows (h : StepMove s t) (hk : s.keepsPixel x y) (hs : s.shows x y c) : t.shows x y c := by
  obtain ⟨hrst, hcmd⟩ := hk
  rcases h.sameImage_or_command hrst with himg | ⟨hp, hr, w, i, hw, hd, he⟩
  · exact hs.congr himg
  · exact he.shows (s := s.passRst.passCmd) (hcmd i ⟨hrst, hp, hr, w, hw, hd⟩) hs

/-- Commands in a row keep the color of a pixel that each of them leaves. -/
theorem execAll_shows {is : List Instr} (his : ∀ i ∈ is, leavesPixel x y i = true) (hs : s.shows x y c) :
    ∃ t, execAll is s = .next t ∧ t.shows x y c := by
  induction is generalizing s with
  | nil => exact ⟨s, rfl, hs⟩
  | cons i is ih =>
    obtain ⟨hi, his⟩ := List.forall_mem_cons.1 his
    obtain ⟨t, ht⟩ := exec_next i s
    simpa only [execAll, ht] using ih his ((execMove_of_exec ht).shows hi hs)

end

/-! #### Runs that leave a pixel -/

/-- A run of one step and more that answers a next state begins with a step that does. -/
theorem exists_step_of_run_succ {s u : State} {k : Nat} (h : Host.Core.run Sys2Proof.core (k + 1) s = .next u) :
    ∃ t, step s = .next t := by
  have g : ∀ (M : Host.Core) (a b : M.State), M.run (k + 1) a = .next b → ∃ c, M.step a = .next c := by
    intro M a b e
    simp only [Host.Core.run] at e
    split at e
    · exact ⟨_, ‹_›⟩
    · cases e
    · cases e
  exact g Sys2Proof.core s u h

/-- A run that leaves a pixel is a step that leaves it and a shorter such run. -/
theorem State.runsKeeping.uncons {s u : State} {x y : Dim} {k : Nat} (h : s.runsKeeping x y (k + 1) u) :
    s.keepsPixel x y ∧ ∃ t, step s = .next t ∧ t.runsKeeping x y k u := by
  obtain ⟨hrun, hkeep⟩ := h
  obtain ⟨t, ht⟩ := exists_step_of_run_succ hrun
  refine ⟨hkeep 0 (Nat.succ_pos k) s (run_zero s), t, ht, (run_succ k ht).symm.trans hrun, fun j hj v hv => ?_⟩
  exact hkeep (j + 1) (Nat.succ_lt_succ hj) v ((run_succ j ht).trans hv)

theorem State.runsKeeping.shows {s u : State} {x y : Dim} {c : Color} {k : Nat} (h : s.runsKeeping x y k u)
    (hs : s.shows x y c) : u.shows x y c := by
  induction k generalizing s with
  | zero =>
    obtain ⟨hrun, -⟩ := h
    cases (run_zero s).symm.trans hrun
    exact hs
  | succ k ih =>
    obtain ⟨hkeep, t, ht, h⟩ := h.uncons
    exact ih h ((stepMove_of_step ht).shows hkeep hs)

/-- A step that takes a command carries it out, once the level of `rst` and the word have been read. -/
theorem State.takesCommand.step_eq {s : State} {i : Instr} (h : s.takesCommand i) :
    step s = exec i s.passRst.passCmd := by
  obtain ⟨hrst, hp, hr, w, hw, hd⟩ := h
  rw [step_of_open hrst hp hr]
  exact commandPort_of_ok (s := s.passRst) hw hd

/-! #### A color given is the color got -/

section
variable {x y : Dim} {c : Color} {s : State} {i : Instr}

/-- After a command that gives the pixel a color, and commands that leave it, `GET` answers that color. -/
theorem get_after_commands (hi : ∃ t, exec i s = .next t ∧ t.shows x y c) (between : List Instr)
    (hbetween : ∀ j ∈ between, leavesPixel x y j = true) :
    ∃ t u, execAll (i :: between) s = .next t ∧ exec (.get x y) t = .next u ∧ u.rsp = some (rspWord .ok c) := by
  obtain ⟨s', hs', hshow⟩ := hi
  obtain ⟨t, ht, hshow⟩ := execAll_shows hbetween hshow
  exact ⟨t, _, by simpa only [execAll, hs'] using ht, hshow.exec_get, rfl⟩

/-- The same over the machine's steps. -/
theorem get_after_steps (hs : s.takesCommand i) (hi : ∃ t, exec i s.passRst.passCmd = .next t ∧ t.shows x y c) :
    ∃ t, step s = .next t ∧ ∀ (k : Nat) (u : State), t.runsKeeping x y k u → u.takesCommand (.get x y) →
      ∃ v, step u = .next v ∧ v.rsp = some (rspWord .ok c) := by
  obtain ⟨t, ht, hshow⟩ := hi
  refine ⟨t, hs.step_eq.trans ht, fun k u hrun hget => ?_⟩
  have hu : u.passRst.passCmd.shows x y c := hrun.shows hshow
  exact ⟨_, hget.step_eq.trans hu.exec_get, rfl⟩

end

/-- Settles O11: a `SET` inside the image gives its pixel the color, and what comes between keeps it. -/
theorem getAfterSet : Obligations.GetAfterSet := by
  unfold Obligations.GetAfterSet
  intro x y c s hwf hv hx hy
  have hxy : s.inImage x y = true := State.inImage_iff.2 ⟨hx, hy⟩
  exact ⟨get_after_commands (exec_set_shows hwf hv hxy c),
    fun hs => get_after_steps hs (exec_set_shows (s := s.passRst.passCmd) hwf hv hxy c)⟩

/-- Settles O12: an `INIT` gives every pixel of its image the color 0, and what comes between keeps it; a bad height
raises an error. -/
theorem getAfterInitIsZero : Obligations.GetAfterInitIsZero := by
  unfold Obligations.GetAfterInitIsZero
  refine fun w h x y s => ⟨fun hh hcap hx hy => ?_, fun hh => ?_⟩
  · have hok := heightOk_iff.2 hh
    have hfits : s.params.fits (cellCount w h) = true := Params.fits_iff.2 hcap
    exact ⟨get_after_commands (exec_init_shows hok hfits hx hy),
      fun hs => get_after_steps hs (exec_init_shows (s := s.passRst.passCmd) hok hfits hx hy)⟩
  · exact ⟨_, exec_init_badHeight (heightOk_eq_false_iff.2 hh), rfl, rfl, rfl, rfl, rfl⟩

end Sys2Proof.Machine

/-! ### The row-stripper: the scan of a strip and the discovery of its colors (O16, O17, O18) -/

namespace Sys2Proof.Machine

/-! #### Rows of equal width, one after the other -/

/-- Row-major order is division with remainder: position `j` is column `j % w` of row `j / w`. -/
theorem flatMap_range_rows {α : Type} (f : Nat → Nat → α) (n w : Nat) :
    ((List.range n).flatMap fun r => (List.range w).map (f r)) =
      (List.range (n * w)).map fun j => f (j / w) (j % w) := by
  induction n with
  | zero => simp
  | succ n ih =>
    have hrow : ∀ x ∈ List.range w, f n x = f ((n * w + x) / w) ((n * w + x) % w) := fun x hx => by
      have hx : x < w := List.mem_range.1 hx
      rw [Nat.mul_comm, Nat.mul_add_div (Nat.zero_lt_of_lt hx), Nat.div_eq_of_lt hx, Nat.add_zero,
        Nat.mul_add_mod, Nat.mod_eq_of_lt hx]
    simp only [List.range_succ, List.flatMap_append, ih, List.flatMap_singleton, Nat.succ_mul, List.range_add,
      List.map_append, List.map_map, List.map_congr_left hrow, Function.comp_def]

/-! #### The scan of a strip (R77) -/

/-- R77 as one list of positions. -/
theorem State.scan_eq_map_range (s : State) (k : Nat) :
    s.scan k = (List.range (6 * s.width.toNat)).map fun j =>
      s.pixRead (j % s.width.toNat) (6 * k + j / s.width.toNat) :=
  flatMap_range_rows (fun r x => s.pixRead x (baseY k + r)) Config.stripH s.width.toNat

@[simp] theorem State.length_scan (s : State) (k : Nat) : (s.scan k).length = 6 * s.width.toNat := by
  simp [State.scan_eq_map_range]

theorem State.scan_eq_nil_iff {s : State} {k : Nat} : s.scan k = [] ↔ s.width.toNat = 0 := by
  rw [← List.length_eq_zero_iff, State.length_scan]
  omega

theorem State.getElem?_scan {s : State} {k j : Nat} (hj : j < 6 * s.width.toNat) :
    (s.scan k)[j]? = some (s.pixRead (j % s.width.toNat) (6 * k + j / s.width.toNat)) := by
  rw [State.scan_eq_map_range, List.getElem?_map, List.getElem?_range hj, Option.map_some]

theorem State.mem_scan_iff {s : State} {k : Nat} {v : Color} :
    v ∈ s.scan k ↔ ∃ x r, x < s.width.toNat ∧ r < 6 ∧ s.pixRead x (6 * k + r) = v := by
  simp only [State.scan, List.mem_flatMap, List.mem_map, List.mem_range]
  exact ⟨fun ⟨r, hr, x, hx, hv⟩ => ⟨x, r, hx, hr, hv⟩, fun ⟨x, r, hx, hr, hv⟩ => ⟨r, hr, x, hx, hv⟩⟩

/-- A scan reads the width and the cells of its own strip, and nothing else. -/
theorem State.scan_eq_of_cells {s t : State} {k : Nat} (hw : t.width = s.width)
    (hcells : ∀ x r, x < s.width.toNat → r < 6 → t.pixRead x (6 * k + r) = s.pixRead x (6 * k + r)) :
    t.scan k = s.scan k := by
  simp only [State.scan, hw]
  exact List.flatMap_congr fun r hr => List.map_congr_left fun x hx =>
    hcells x r (List.mem_range.1 hx) (List.mem_range.1 hr)

/-! #### Discovery (R78): what one more scanned value does -/

theorem discover_concat (vs : List Color) (v : Color) : discover (vs ++ [v]) = discoverStep (discover vs) v := by
  simp only [discover, List.foldl_append, List.foldl_cons, List.foldl_nil]

theorem discoverStep_of_mem {l : List Color} {v : Color} (h : v ∈ l) : discoverStep l v = l := if_pos h

theorem discoverStep_of_notMem {l : List Color} {v : Color} (h : v ∉ l) : discoverStep l v = l ++ [v] := if_neg h

theorem mem_discoverStep {l : List Color} {u v : Color} : u ∈ discoverStep l v ↔ u ∈ l ∨ u = v := by
  by_cases h : v ∈ l
  · rw [discoverStep_of_mem h]
    exact ⟨.inl, fun hu => hu.elim id fun e => e ▸ h⟩
  · rw [discoverStep_of_notMem h, List.mem_append, List.mem_singleton]

@[simp] theorem mem_discover {vs : List Color} {v : Color} : v ∈ discover vs ↔ v ∈ vs := by
  induction vs using List.reverseRecOn with
  | nil => rfl
  | append_singleton vs u ih => rw [discover_concat, mem_discoverStep, ih, List.mem_append, List.mem_singleton]

/-- R79 (c): a value met for the first time is behind every value met before it. -/
theorem pairwise_idxOf_discover (vs : List Color) :
    (discover vs).Pairwise fun u v => vs.idxOf u < vs.idxOf v := by
  induction vs using List.reverseRecOn with
  | nil => exact .nil
  | append_singleton vs v ih =>
    have hold : ∀ u ∈ discover vs, (vs ++ [v]).idxOf u = vs.idxOf u := fun u hu =>
      List.idxOf_append_of_mem (mem_discover.1 hu)
    have ih' : (discover vs).Pairwise fun u w => (vs ++ [v]).idxOf u < (vs ++ [v]).idxOf w :=
      ih.imp_of_mem fun {u w} hu hw h => by rwa [hold u hu, hold w hw]
    rw [discover_concat]
    by_cases hv : v ∈ discover vs
    · rwa [discoverStep_of_mem hv]
    · rw [discoverStep_of_notMem hv]
      refine List.pairwise_append.2 ⟨ih', List.pairwise_singleton .., fun u hu w hw => ?_⟩
      obtain rfl : w = v := List.mem_singleton.1 hw
      calc (vs ++ [w]).idxOf u = vs.idxOf u := hold u hu
        _ < vs.length := List.idxOf_lt_length_of_mem (mem_discover.1 hu)
        _ ≤ (vs ++ [w]).idxOf w := by
          rw [List.idxOf_append_of_notMem (mt mem_discover.2 hv)]
          exact Nat.le_add_right ..

/-- R79 (a): a value is not before itself. -/
theorem nodup_discover (vs : List Color) : (discover vs).Nodup :=
  (pairwise_idxOf_discover vs).imp fun {u v} h (e : u = v) => absurd h (e ▸ lt_irrefl _)

/-- R79 (d): the first value met stays the first. -/
theorem head?_discover (vs : List Color) : (discover vs).head? = vs.head? := by
  induction vs using List.reverseRecOn with
  | nil => rfl
  | append_singleton vs v ih =>
    rw [discover_concat]
    by_cases hv : v ∈ discover vs
    · have hne : vs ≠ [] := List.ne_nil_of_mem (mem_discover.1 hv)
      rw [discoverStep_of_mem hv, ih, List.head?_append_of_ne_nil _ hne]
    · rw [discoverStep_of_notMem hv, List.head?_append, List.head?_append, ih]

theorem discover_eq_nil_iff {vs : List Color} : discover vs = [] ↔ vs = [] := by
  rw [← List.head?_eq_none_iff, head?_discover, List.head?_eq_none_iff]

theorem length_discover_le (vs : List Color) : (discover vs).length ≤ vs.length :=
  ((nodup_discover vs).subperm fun _ => mem_discover.1).length_le

/-- R81: a color is one of the values of its type. -/
theorem length_le_of_nodup {l : List Color} (h : l.Nodup) : l.length ≤ 65536 :=
  calc l.length ≤ Fintype.card Color := h.length_le_card
    _ = FinEnum.card Color := FinEnum.card_eq_fintypeCard.symm
    _ = 2 ^ 16 := FinEnum.card_bitVec 16

/-! #### The obligations -/

/-- Settles O16: the scan is the row-major order of the strip's six rows. -/
theorem scanIsRowMajor : Obligations.ScanIsRowMajor := by
  unfold Obligations.ScanIsRowMajor
  exact fun s k => ⟨s.length_scan k, fun j => State.getElem?_scan⟩

/-- Settles O17: each part is a fact about discovery, read at the scan of the strip. -/
theorem colorsInFirstSeenOrder : Obligations.ColorsInFirstSeenOrder := by
  unfold Obligations.ColorsInFirstSeenOrder
  refine fun s k => ⟨nodup_discover _, fun v => mem_discover.trans State.mem_scan_iff,
    pairwise_idxOf_discover _, fun hw => ?_, fun t hw hcells => congrArg discover (State.scan_eq_of_cells hw hcells)⟩
  calc (s.colors k).head? = (s.scan k)[0]? := (head?_discover _).trans List.head?_eq_getElem?
    _ = some (s.pixRead 0 (6 * k)) := by
      rw [State.getElem?_scan (by omega), Nat.zero_mod, Nat.zero_div, Nat.add_zero]

/-- Settles O18: no more colors than cells scanned, nor than values of the index type, and none only from an empty
scan. -/
theorem colorsLengthBound : Obligations.ColorsLengthBound := by
  unfold Obligations.ColorsLengthBound
  refine fun s k => ⟨le_min ?_ (length_le_of_nodup (nodup_discover _)), ?_⟩
  · exact (length_discover_le _).trans_eq (s.length_scan k)
  · exact List.length_eq_zero_iff.trans (discover_eq_nil_iff.trans State.scan_eq_nil_iff)

end Sys2Proof.Machine

/-! ### The bitmask generator: the rows of a column that have a color (O19, O20, O21, O22) -/

namespace Sys2Proof.Machine

/-! #### The mask as a set of rows (R83, R84) -/

/-- The rows of strip `k` whose pixel in column `x` has color `c`: the lanes that match (R83). -/
def State.rowsOf (s : State) (k : Nat) (c : Color) (x : Nat) : Finset Nat :=
  {i ∈ Finset.range 6 | s.pixRead x (6 * k + i) = c}

theorem State.mem_rowsOf {s : State} {k : Nat} {c : Color} {x i : Nat} :
    i ∈ s.rowsOf k c x ↔ i < 6 ∧ s.pixRead x (6 * k + i) = c := by
  rw [State.rowsOf, Finset.mem_filter, Finset.mem_range]

/-- R84: the mask is the binary number whose digits 1 stand at the matching rows. -/
theorem State.mask_eq_sum_two_pow (s : State) (k : Nat) (c : Color) (x : Nat) :
    s.mask k c x = ∑ i ∈ s.rowsOf k c x, 2 ^ i := by
  rw [State.rowsOf, Finset.sum_filter, ← List.toFinset_range, List.sum_toFinset _ List.nodup_range]
  simp only [State.mask, State.laneMatch, baseY, Config.stripH, beq_iff_eq]

theorem State.testBit_mask {s : State} {k : Nat} {c : Color} {x i : Nat} :
    (s.mask k c x).testBit i = true ↔ i < 6 ∧ s.pixRead x (6 * k + i) = c := by
  rw [← Nat.mem_bitIndices, ← List.mem_toFinset, State.mask_eq_sum_two_pow,
    Finset.toFinset_bitIndices_sum_two_pow, State.mem_rowsOf]

theorem State.mask_ne_zero_iff {s : State} {k : Nat} {c : Color} {x : Nat} :
    s.mask k c x ≠ 0 ↔ ∃ i, i < 6 ∧ s.pixRead x (6 * k + i) = c := by
  constructor
  · exact fun h => (Nat.exists_testBit_of_ne_zero h).imp fun _ => State.testBit_mask.1
  · exact fun ⟨i, hi⟩ h0 => absurd (State.testBit_mask.2 hi) (by simp [h0])

/-- The byte `?` stands for no row at all. -/
theorem State.crb_ne_63_iff {s : State} {k : Nat} {c : Color} {x : Nat} :
    s.crb k c x ≠ 63 ↔ s.mask k c x ≠ 0 := by
  rw [ne_eq, ← BitVec.toNat_inj, State.toNat_crb]
  exact not_congr Nat.add_eq_left

/-! #### The discovered colors (R88, R89) -/

/-- A color is discovered when it shows in some column of its strip. -/
theorem State.mem_colors_iff_mask {s : State} {k : Nat} {c : Color} :
    c ∈ s.colors k ↔ ∃ x, x < s.width.toNat ∧ s.mask k c x ≠ 0 := by
  simp only [State.colors, mem_discover, State.mem_scan_iff, State.mask_ne_zero_iff, exists_and_left]

/-- Each row of a column has one color, a discovered one: the sum over the colors is the sum over the rows. -/
theorem State.sum_mask_colors {s : State} {k x : Nat} (hx : x < s.width.toNat) :
    ((s.colors k).map fun c => s.mask k c x).sum = 63 := by
  have hfound : ∀ i ∈ Finset.range 6, s.pixRead x (6 * k + i) ∈ (s.colors k).toFinset := fun i hi =>
    List.mem_toFinset.2 (mem_discover.2 (State.mem_scan_iff.2 ⟨x, i, hx, Finset.mem_range.1 hi, rfl⟩))
  calc ((s.colors k).map fun c => s.mask k c x).sum
      = ∑ c ∈ (s.colors k).toFinset, s.mask k c x := (List.sum_toFinset _ (nodup_discover _)).symm
    _ = ∑ c ∈ (s.colors k).toFinset, ∑ i ∈ s.rowsOf k c x, 2 ^ i :=
      Finset.sum_congr rfl fun c _ => s.mask_eq_sum_two_pow k c x
    _ = ∑ i ∈ Finset.range 6, 2 ^ i := Finset.sum_fiberwise_of_maps_to hfound _
    _ = 63 := by decide

/-- A row has one color only. -/
theorem State.mask_and_mask_eq_zero {s : State} {k x : Nat} {c c' : Color} (h : c ≠ c') :
    s.mask k c x &&& s.mask k c' x = 0 := by
  refine Nat.zero_of_testBit_eq_false fun i => Bool.eq_false_iff.2 fun hi => ?_
  rw [Nat.testBit_and, Bool.and_eq_true, State.testBit_mask, State.testBit_mask] at hi
  obtain ⟨⟨-, hc⟩, -, hc'⟩ := hi
  exact h (hc.symm.trans hc')

/-! #### The obligations -/

/-- Settles O19: the mask is the binary number of the matching rows, and 63 more fits a byte. -/
theorem maskBitIsRowMatch : Obligations.MaskBitIsRowMatch := by
  unfold Obligations.MaskBitIsRowMatch
  exact fun s k c x => ⟨fun _ => State.testBit_mask, s.toNat_crb k c x⟩

/-- Settles O20: a mask of six bits is at most 63. -/
theorem colorRunByteRange : Obligations.ColorRunByteRange := by
  unfold Obligations.ColorRunByteRange
  exact State.toNat_crb_bounds

/-- Settles O21: to be discovered is to show in some column. -/
theorem discoveredColorShows : Obligations.DiscoveredColorShows := by
  unfold Obligations.DiscoveredColorShows
  refine fun s k c => ⟨fun hc => ?_, fun hc x hx => ?_⟩
  · obtain ⟨x, hx, hm⟩ := State.mem_colors_iff_mask.1 hc
    exact ⟨x, hx, hm, State.crb_ne_63_iff.2 hm⟩
  · by_contra hm
    exact hc (State.mem_colors_iff_mask.2 ⟨x, hx, hm⟩)

/-- Settles O22: every row of the column has exactly one of the discovered colors. -/
theorem masksPartitionColumn : Obligations.MasksPartitionColumn := by
  unfold Obligations.MasksPartitionColumn
  exact fun s k x hx => ⟨State.sum_mask_colors hx, fun _ _ => State.mask_and_mask_eq_zero⟩

end Sys2Proof.Machine

/-! ### The run-length compressor (O25, O26, O27, O28) -/

namespace Sys2Proof.Machine

/-! #### The flush policy (R94, R95, R98) -/

theorem flush_of_lt_three (b : Byte) {n : Nat} (h : n < 3) : flush b n = List.replicate n b := if_pos h

theorem flush_of_three_le (b : Byte) {n : Nat} (h : 3 ≤ n) : flush b n = chBang :: (dec n ++ [b]) :=
  if_neg (Nat.not_lt.2 h)

/-- R98 (d): from 3 on, `'!'`, the digits and the byte are no more than the run. -/
theorem length_dec_add_two_le {n : Nat} (h : 3 ≤ n) : (dec n).length + 2 ≤ n := by
  obtain ⟨d, rfl⟩ : ∃ d, n = d + 2 := ⟨n - 2, by omega⟩
  have hpow : 1 + d * 9 ≤ 10 ^ d := one_add_le_pow_of_two_add_nonneg (by decide) d
  exact Nat.add_le_add_right (length_decFuel_le (d + 2) (by omega) (by omega)) 2

theorem length_flush_le (b : Byte) (n : Nat) : (flush b n).length ≤ n := by
  rcases Nat.lt_or_ge n 3 with h | h
  · rw [flush_of_lt_three b h, List.length_replicate]
  · rw [flush_of_three_le b h, List.length_cons, List.length_append, List.length_singleton]
    exact length_dec_add_two_le h

/-! #### The runs of a byte string (R97) -/

/-- The first run is of the first byte. -/
theorem map_fst_head?_runs (bs : List Byte) : (runs bs).head?.map Prod.fst = bs.head? := by
  cases bs with
  | nil => rfl
  | cons b bs =>
    unfold runs
    split
    · rfl
    · split
      · subst b; rfl
      · rfl

theorem runs_cons_of_runs_eq {b : Byte} {n : Nat} {bs : List Byte} {rs : List (Byte × Nat)}
    (h : runs bs = (b, n) :: rs) : runs (b :: bs) = (b, n + 1) :: rs := by
  simp [runs, h]

theorem runs_cons_of_head?_ne {b : Byte} {bs : List Byte} (h : bs.head? ≠ some b) :
    runs (b :: bs) = (b, 1) :: runs bs := by
  rw [← map_fst_head?_runs] at h
  rcases hr : runs bs with _ | ⟨⟨c, n⟩, rs⟩
  · simp [runs, hr]
  · have hbc : b ≠ c := fun hbc => h (by simp [hr, hbc])
    simp [runs, hr, hbc]

/-- Copies of a byte, before a string that does not begin with it, are one run. -/
theorem runs_replicate_append {b : Byte} {bs : List Byte} (n : Nat) (h : bs.head? ≠ some b) :
    runs (List.replicate (n + 1) b ++ bs) = (b, n + 1) :: runs bs := by
  induction n with
  | zero => exact runs_cons_of_head?_ne h
  | succ n ih => exact runs_cons_of_runs_eq ih

/-- What remains of a cut without its first run is a cut of the bytes after that run, which begin with another byte. -/
theorem cutsInto.uncons {b : Byte} {n : Nat} {bs : List Byte} {rs : List (Byte × Nat)}
    (h : cutsInto bs ((b, n) :: rs)) :
    ∃ m bs', n = m + 1 ∧ bs = List.replicate n b ++ bs' ∧ cutsInto bs' rs ∧ ∀ r ∈ rs.head?, b ≠ r.1 := by
  obtain ⟨hcut, hpos, hne⟩ := h
  refine ⟨n - 1, _, ?_, hcut.symm, ⟨rfl, fun r hr => hpos r (List.mem_cons_of_mem _ hr), fun q r hqr =>
    hne q r (List.infix_cons hqr)⟩, fun r hr => ?_⟩
  · have := hpos _ List.mem_cons_self; omega
  · obtain ⟨rs', rfl⟩ := List.head?_eq_some_iff.1 hr
    exact hne _ r ⟨[], rs', rfl⟩

/-- R97: a cut into maximal runs is the runs of the string. -/
theorem cutsInto.eq_runs {bs : List Byte} {rs : List (Byte × Nat)} (h : cutsInto bs rs) : rs = runs bs := by
  induction rs generalizing bs with
  | nil =>
    obtain ⟨rfl, -⟩ := h
    rfl
  | cons r rs ih =>
    obtain ⟨b, n⟩ := r
    obtain ⟨m, bs', rfl, rfl, hcut, hne⟩ := h.uncons
    obtain rfl := ih hcut
    refine (runs_replicate_append m fun hb => ?_).symm
    rw [← map_fst_head?_runs] at hb
    obtain ⟨r, hr, hrb⟩ := Option.map_eq_some_iff.1 hb
    exact hne r hr hrb.symm

/-! #### The state machine and the closed form (R91 to R97) -/

/-- A run of `n` bytes before another byte is written as its flush, an empty run as nothing. -/
theorem rle_replicate_append {b : Byte} {bs : List Byte} (n : Nat) (h : bs.head? ≠ some b) :
    rle (List.replicate n b ++ bs) = flush b n ++ rle bs := by
  cases n with
  | zero => rfl
  | succ n => rw [rle, runs_replicate_append n h, List.flatMap_cons, rle]

/-- The pending bytes stand before the bytes still to come. With none pending, as at the start of a color, it does not
matter which byte `last` is. -/
theorem rleFrom_eq_rle (last : Byte) (n : Nat) (bs : List Byte) :
    rleFrom last n bs = rle (List.replicate n last ++ bs) := by
  induction bs generalizing last n with
  | nil =>
    rw [rle_replicate_append n (by simp)]
    exact (List.append_nil _).symm
  | cons b bs ih =>
    unfold rleFrom
    split
    · subst b
      rw [ih, List.replicate_succ', List.append_assoc, List.singleton_append]
    · rename_i hb
      rw [ih, rle_replicate_append n (by simpa using hb)]
      rfl

/-- R98 (e): each run is flushed to no more bytes than it has. -/
theorem length_rle_le (bs : List Byte) : (rle bs).length ≤ bs.length := by
  obtain ⟨hcut, -, -⟩ := cutsInto_runs bs
  calc (rle bs).length = ((runs bs).map fun r => (flush r.1 r.2).length).sum := List.length_flatMap
    _ ≤ ((runs bs).map fun r => (List.replicate r.2 r.1).length).sum :=
      List.sum_le_sum fun r _ => (length_flush_le r.1 r.2).trans_eq List.length_replicate.symm
    _ = bs.length := by rw [← List.length_flatMap, hcut]

/-! #### The obligations -/

/-- Settles O25: the two sides of the threshold 3. -/
theorem flushPolicy : Obligations.FlushPolicy := by
  unfold Obligations.FlushPolicy
  exact fun b => ⟨flush_of_lt_three b (by decide), flush_of_lt_three b (by decide), flush_of_lt_three b (by decide),
    fun n => flush_of_three_le b⟩

/-- Settles O26: a cut into maximal runs is the list of runs that `rle` flushes. -/
theorem rleFlushesMaximalRuns : Obligations.RleFlushesMaximalRuns := by
  unfold Obligations.RleFlushesMaximalRuns
  exact fun bs => ⟨⟨runs bs, cutsInto_runs bs, fun rs => cutsInto.eq_runs⟩, fun rs h => h.eq_runs ▸ rfl⟩

/-- Settles O27: nothing is pending at `(0, 0)`, so what is written is `rle` of the string alone. -/
theorem compressorMeetsClosedForm : Obligations.CompressorMeetsClosedForm := by
  unfold Obligations.CompressorMeetsClosedForm
  exact fun bs _ => rleFrom_eq_rle 0 0 bs

/-- Settles O28: the bounds of one flush, and their sum over the runs. -/
theorem rleNeverLonger : Obligations.RleNeverLonger := by
  unfold Obligations.RleNeverLonger
  exact ⟨fun b n => ⟨length_flush_le b n, fun hn => length_flush_le_seven b (Nat.lt_succ_of_le hn)⟩, length_rle_le⟩

end Sys2Proof.Machine

/-! ### The sequencer and the output port, step by step (O34 to O41, O45, O52) -/

namespace Sys2Proof.Machine

/-! #### The start of an ENCODE (44_encode.md R108) -/

theorem exec_encode_noImage {s : State} (hv : s.valid = false) : exec .encode s = .next (s.raise .errNoImage) := by
  simp [exec, execEncode, hv]

theorem exec_encode_ok {s : State} (hv : s.valid = true) : exec .encode s = .next s.firstStrip := by
  simp [exec, execEncode, hv]

/-- R47: the word of `ENCODE`. -/
theorem decode_encodeWord : decode 0x4000000000000000 = .ok .encode := by decide

/-- R108: the word of `ENCODE` at an open port is taken and carried out. -/
theorem step_of_encodeWord {s : State} (hrst : s.rstHigh = false) (hp : s.phase = .idle) (hr : s.rsp = none)
    (hw : s.env.cmds.head? = some (some 0x4000000000000000)) : step s = exec .encode s.passRst.passCmd := by
  rw [step_of_open hrst hp hr]
  exact commandPort_of_ok (s := s.passRst) hw decode_encodeWord

/-- Settles O34: the two outcomes of the start, and the same at the open port, whose phase is `IDLE` already. -/
theorem encodeStarts : Obligations.EncodeStarts := by
  unfold Obligations.EncodeStarts
  refine ⟨fun s => ⟨exec_encode_noImage, exec_encode_ok⟩, fun s hrst hp hr hw =>
    ⟨fun hv => ?_, fun hv => ?_, fun hs => hs.oq_of_idle hp⟩⟩
  · rw [step_of_encodeWord hrst hp hr hw, exec_encode_noImage (s := s.passRst.passCmd) hv]
    simp only [State.raise, State.respond, State.passCmd, State.passRst, hp]
    rfl
  · rw [step_of_encodeWord hrst hp hr hw]
    exact exec_encode_ok (s := s.passRst.passCmd) hv

/-! #### The outcomes of a sequencer step, one equation each (R109 to R113) -/

section
variable {s : State}

theorem seqStep_lastStrip (hp : s.phase = .stripBegin) (hk : s.strip.toNat = s.strips) :
    seqStep s = .next (s.enter .finish) := by
  simp [seqStep, seqStripBegin, hp, hk]

theorem seqStep_discover (hp : s.phase = .stripBegin) (hk : s.strip.toNat ≠ s.strips) (hr : s.stripReadable = true) :
    seqStep s = .next s.firstColor := by
  simp [seqStep, seqStripBegin, hp, hk, hr]

theorem seqStep_noColor (hp : s.phase = .colorBegin) (hc : s.clist[s.cidx.toNat]? = none) :
    seqStep s = .next (s.enter .stripEnd) := by
  simp [seqStep, seqColorBegin, hp, hc]

theorem seqStep_color {c : Color} (hp : s.phase = .colorBegin) (hc : s.clist[s.cidx.toNat]? = some c) :
    seqStep s = .next ((s.push s.seqBytes).firstColumn c) := by
  simp [seqStep, seqColorBegin, hp, hc]

theorem seqStep_column (hp : s.phase = .column) (hx : s.x.toNat < s.width.toNat) (hr : s.stripReadable = true) :
    seqStep s = .next ((s.push s.seqBytes).feedRun s.curByte).nextColumn := by
  simp [seqStep, seqColumn, hp, hx, hr]

theorem seqStep_lastColumn (hp : s.phase = .column) (hx : ¬ s.x.toNat < s.width.toNat) :
    seqStep s = .next (s.push s.seqBytes).nextColor := by
  simp [seqStep, seqColumn, hp, hx]

theorem seqStep_stripEnd (hp : s.phase = .stripEnd) : seqStep s = .next (s.push s.seqBytes).nextStrip := by
  simp [seqStep, seqStripEnd, hp]

theorem seqStep_finish (hp : s.phase = .finish) : seqStep s = .next (s.leaveWorking.respond .ok 0) := by
  simp [seqStep, seqFinish, hp]

theorem State.stripReadable_iff : s.stripReadable = true ↔ s.valid = true ∧ s.strip.toNat < s.strips := by
  simp [State.stripReadable]

/-! #### What each of them pushes -/

theorem State.seqBytes_color {c : Color} (hp : s.phase = .colorBegin) (hc : s.clist[s.cidx.toNat]? = some c) :
    s.seqBytes = chHash :: dec c.toNat := by
  simp [State.seqBytes, hp, hc]

theorem State.seqBytes_column (hp : s.phase = .column) (hx : s.x.toNat < s.width.toNat) :
    s.seqBytes = if s.curByte = s.lastByte then [] else s.flushPending := by
  simp [State.seqBytes, hp, hx]

theorem State.seqBytes_lastColumn (hp : s.phase = .column) (hx : ¬ s.x.toNat < s.width.toNat) :
    s.seqBytes = s.flushPending ++ [chDollar] := by
  simp [State.seqBytes, hp, hx]

theorem State.seqBytes_stripEnd (hp : s.phase = .stripEnd) : s.seqBytes = [chDash] := by
  simp [State.seqBytes, hp]

end

theorem State.push_nil (s : State) : s.push [] = s := by
  simp [State.push]

theorem State.feedRun_of_eq {s : State} {b : Byte} (h : b = s.lastByte) :
    s.feedRun b = { s with runCount := s.runCount + 1 } := by
  simp [State.feedRun, h]

theorem State.feedRun_of_ne {s : State} {b : Byte} (h : b ≠ s.lastByte) :
    s.feedRun b = { s with lastByte := b, runCount := 1 } := by
  simp [State.feedRun, h]

/-- Settles O35: the end of the strips, and the discovery of a strip that can be read. -/
theorem stripBeginStep : Obligations.StripBeginStep := by
  unfold Obligations.StripBeginStep
  exact fun s hp => ⟨seqStep_lastStrip hp, fun hv hk =>
    seqStep_discover hp hk.ne (State.stripReadable_iff.2 ⟨hv, hk⟩)⟩

/-- Settles O36: the end of the colors, and the head of a color block. -/
theorem colorBeginStep : Obligations.ColorBeginStep := by
  unfold Obligations.ColorBeginStep
  refine fun s hp => ⟨fun hi => seqStep_noColor hp (List.getElem?_eq_none hi.ge), fun c hc => ?_⟩
  rw [seqStep_color hp hc, State.seqBytes_color hp hc]
  rfl

/-- Settles O37: a column whose byte is that of the pending run, one whose byte is not, and the end of the columns. -/
theorem columnStep : Obligations.ColumnStep := by
  unfold Obligations.ColumnStep
  refine fun s hp => ⟨fun hv hk hx => ⟨fun hb => ?_, fun hb => ?_⟩, fun hx => ?_⟩
  · have hb : s.curByte = s.lastByte := hb
    rw [seqStep_column hp hx (State.stripReadable_iff.2 ⟨hv, hk⟩), State.seqBytes_column hp hx, if_pos hb,
      State.push_nil, State.feedRun_of_eq hb]
    rfl
  · have hb : s.curByte ≠ s.lastByte := hb
    rw [seqStep_column hp hx (State.stripReadable_iff.2 ⟨hv, hk⟩), State.seqBytes_column hp hx, if_neg hb,
      State.feedRun_of_ne (s := s.push _) hb]
    rfl
  · have hx : ¬ s.x.toNat < s.width.toNat := by simp [hx]
    rw [seqStep_lastColumn hp hx, State.seqBytes_lastColumn hp hx]
    rfl

/-- Settles O38: the one outcome of `STRIP_END`. -/
theorem stripEndStep : Obligations.StripEndStep := by
  unfold Obligations.StripEndStep
  intro s hp
  rw [seqStep_stripEnd hp, State.seqBytes_stripEnd hp]
  rfl

/-! #### The schedule (R115) -/

/-- With `rst` low a step of a busy block is one of the running ENCODE. -/
theorem step_of_busy {s : State} (hrst : s.rstHigh = false) (hb : s.busy = true) : step s = runBusy s.passRst := by
  rw [step_of_rstLow hrst]
  exact cycle_of_busy (s := s.passRst) hb

section
variable {s : State} {b : Byte} {rest : List Byte}

theorem runBusy_of_oq_nil (hq : s.oq = []) : runBusy s = seqStep s := by
  simp [runBusy, hq]

theorem runBusy_of_out (hq : s.oq = b :: rest) (ho : s.out ≠ none) : runBusy s = .next (s.drain b rest) := by
  simp [runBusy, hq, Option.isSome_iff_ne_none.2 ho]

theorem runBusy_of_not_seqEnabled (hq : s.oq = b :: rest) (he : s.seqEnabled = false) :
    runBusy s = .next (s.drain b rest) := by
  simp [runBusy, hq, he]

theorem runBusy_of_seqFirst (hq : s.oq = b :: rest) (ho : s.out = none) (he : s.seqEnabled = true)
    (hf : s.seqFirst = true) : runBusy s = seqStep s.passSched := by
  simp [runBusy, hq, ho, he, hf]

theorem runBusy_of_not_seqFirst (hq : s.oq = b :: rest) (ho : s.out = none) (he : s.seqEnabled = true)
    (hf : s.seqFirst = false) : runBusy s = .next (s.passSched.drain b rest) := by
  simp [runBusy, hq, ho, he, hf]

theorem State.seqEnabled_iff :
    s.seqEnabled = true ↔ s.phase ≠ .finish ∧ s.oq.length + s.seqBytes.length ≤ s.params.oqcap := by
  simp [State.seqEnabled]

theorem State.seqEnabled_eq_false_iff :
    s.seqEnabled = false ↔ s.phase = .finish ∨ s.params.oqcap < s.oq.length + s.seqBytes.length := by
  rw [← Bool.not_eq_true, State.seqEnabled_iff]
  simp only [not_and_or, not_not, not_le]

theorem State.seqFirst_iff : s.seqFirst = true ↔ s.env.sched.head? = some true := by
  unfold State.seqFirst
  cases s.env.sched <;> simp

end

/-- Settles O41: the cases of a step of a running ENCODE. -/
theorem sequencerScheduling : Obligations.SequencerScheduling := by
  unfold Obligations.SequencerScheduling
  intro s hb hrst
  rw [step_of_busy hrst hb]
  refine ⟨runBusy_of_oq_nil (s := s.passRst), fun b rest hq => ⟨runBusy_of_out (s := s.passRst) hq, ?_, ?_⟩⟩
  · exact fun _ hfull => runBusy_of_not_seqEnabled (s := s.passRst) hq (State.seqEnabled_eq_false_iff.2 hfull)
  · intro ho hf hroom
    have he : s.passRst.seqEnabled = true := State.seqEnabled_iff.2 ⟨hf, hroom⟩
    refine ⟨fun hs => ?_, fun hs => ?_⟩
    · exact runBusy_of_seqFirst (s := s.passRst) hq ho he (State.seqFirst_iff.2 hs)
    · exact runBusy_of_not_seqFirst (s := s.passRst) hq ho he (Bool.eq_false_iff.2 (mt State.seqFirst_iff.1 hs))

theorem rspWord_ok_zero : rspWord .ok 0 = 0x00000000 := by decide

theorem rspWord_errSink : rspWord .errSink 0 = 0x00020000 := by decide

/-- Settles O39: with `oq` empty the sequencer step is that of `FINISH`; with `oq` not empty it is not enabled. -/
theorem finishStep : Obligations.FinishStep := by
  unfold Obligations.FinishStep
  intro s hp hrst
  have hb : s.busy = true := State.busy_eq_true_iff.2 (by simp [hp])
  rw [step_of_busy hrst hb]
  refine ⟨fun hq => ?_, fun b rest hq => ?_⟩
  · rw [runBusy_of_oq_nil (s := s.passRst) hq, seqStep_finish (s := s.passRst) hp]
    exact ⟨_, rfl, congrArg some rspWord_ok_zero, rfl, ⟨rfl, rfl, rfl, rfl⟩, hq, rfl, rfl, rfl⟩
  · exact runBusy_of_not_seqEnabled (s := s.passRst) hq (State.seqEnabled_eq_false_iff.2 (.inl hp))

/-! #### The offer (R105, R106, R114) -/

theorem State.passAnswer_of_nil {s : State} (h : s.env.answers = []) : s.passAnswer = s := by
  rw [State.passAnswer, h, List.tail_nil, ← h]

/-- Settles O40: an offer by what stands at the head of the sink's answers. -/
theorem offerOutcomes : Obligations.OfferOutcomes := by
  unfold Obligations.OfferOutcomes
  refine fun s b rest _ => ⟨fun ha => ?_, fun as ha => ?_, fun as ha => ?_, fun as ha => ⟨_, rfl, ?_⟩⟩
  · rw [State.drain, ha, State.passAnswer_of_nil ha]
    rfl
  · simp [State.drain, ha, State.passAnswer, State.onOffer]
  · simp [State.drain, ha, State.passAnswer, State.accepted]
  · have hd : s.drain b rest = s.passAnswer.sinkFailed := by simp [State.drain, ha]
    rw [hd]
    exact ⟨rfl, rfl, congrArg some rspWord_errSink, rfl, ⟨rfl, rfl, rfl, rfl⟩, rfl, by simp [ha]⟩

/-- An offer leaves the sink's stream, or the byte offered is accepted and joins it. -/
theorem State.drain_stream (s : State) (b : Byte) (rest : List Byte) :
    (s.drain b rest).env.stream = s.env.stream ∨
      s.env.answers.head? = some (some .accept) ∧ (s.drain b rest).env.stream = s.env.stream ++ [b] := by
  rcases s.drain_cases b rest with ⟨-, e⟩ | ⟨ha, e⟩ | ⟨-, e⟩ <;> rw [e]
  · exact .inl rfl
  · exact .inr ⟨headD_none_eq_some.1 ha, rfl⟩
  · exact .inl rfl

/-- R105: only an offer that is accepted delivers a byte. -/
theorem StepMove.stream {s t : State} (h : StepMove s t) : t.env.stream = s.env.stream ∨
    s.rstHigh = false ∧ s.busy = true ∧ s.env.answers.head? = some (some .accept) ∧
      ∃ b, s.oq.head? = some b ∧ t.env.stream = s.env.stream ++ [b] := by
  cases h with
  | reset => exact .inl rfl
  | seqOnEmpty _ _ _ h =>
    obtain ⟨-, -, he⟩ := h.frame
    exact .inl (by rw [he]; rfl)
  | seqByChoice _ _ _ _ h =>
    obtain ⟨-, -, he⟩ := h.frame
    exact .inl (by rw [he]; rfl)
  | @offer b rest hrst hb hq =>
    exact (s.passRst.drain_stream b rest).imp_right fun ⟨ha, hstream⟩ => ⟨hrst, hb, ha, b, by simp [hq], hstream⟩
  | @offerByChoice b rest hrst hb hq =>
    exact (s.passRst.passSched.drain_stream b rest).imp_right fun ⟨ha, hstream⟩ =>
      ⟨hrst, hb, ha, b, by simp [hq], hstream⟩
  | response =>
    obtain ⟨-, rs, he⟩ := s.passRst.hostTakes_outside
    exact .inl (by rw [he]; rfl)
  | noWord => exact .inl rfl
  | illegal => exact .inl rfl
  | command _ _ _ _ _ h =>
    obtain ⟨-, -, -, he⟩ := h.frame
    exact .inl (by rw [he]; rfl)

/-- Settles O45: a step is one of the moves, and of these only an accepted offer delivers. -/
theorem streamGrowsByAcceptedHead : Obligations.StreamGrowsByAcceptedHead := by
  unfold Obligations.StreamGrowsByAcceptedHead
  exact fun s t h => (stepMove_of_step h).stream

/-! #### No step stops the machine (R116) -/

/-- At a position within its bounds the cells that the sequencer reads exist. -/
theorem seqStep_next {s : State} (hpos : s.positionOk) (hv : s.busy = true → s.valid = true) :
    ∃ t, seqStep s = .next t := by
  cases hp : s.phase <;> simp only [State.positionOk, hp] at hpos
  case idle => exact ⟨s, by simp [seqStep, hp]⟩
  case stripBegin =>
    by_cases hk : s.strip.toNat = s.strips
    · exact ⟨_, seqStep_lastStrip hp hk⟩
    · have hr := State.stripReadable_iff.2 ⟨hv (by simp [State.busy, hp]), hpos.lt_of_ne hk⟩
      exact ⟨_, seqStep_discover hp hk hr⟩
  case colorBegin =>
    cases hc : s.clist[s.cidx.toNat]? with
    | none => exact ⟨_, seqStep_noColor hp hc⟩
    | some c => exact ⟨_, seqStep_color hp hc⟩
  case column =>
    obtain ⟨hk, -⟩ := hpos
    by_cases hx : s.x.toNat < s.width.toNat
    · have hr := State.stripReadable_iff.2 ⟨hv (by simp [State.busy, hp]), hk⟩
      exact ⟨_, seqStep_column hp hx hr⟩
    · exact ⟨_, seqStep_lastColumn hp hx⟩
  case stripEnd => exact ⟨_, seqStep_stripEnd hp⟩
  case finish => exact ⟨_, seqStep_finish hp⟩

theorem State.Inv.valid_of_busy {s : State} (h : s.Inv) (hb : s.busy = true) : s.valid = true := by
  obtain ⟨-, -, ⟨-, -, -, hbusy⟩, -⟩ := h
  exact (hbusy hb).1

theorem State.Inv.rsp_of_busy {s : State} (h : s.Inv) (hb : s.busy = true) : s.rsp = none := by
  obtain ⟨-, -, ⟨-, -, -, hbusy⟩, -⟩ := h
  exact (hbusy hb).2

theorem State.Inv.positionOk {s : State} (h : s.Inv) : s.positionOk := by
  obtain ⟨-, -, -, hpos⟩ := h
  exact hpos

theorem runBusy_next {s : State} (hs : s.Inv) : ∃ t, runBusy s = .next t := by
  rcases runBusy_cases s with ⟨-, e⟩ | ⟨b, rest, -, e⟩ | ⟨b, rest, -, e⟩ | ⟨b, rest, -, -, -, e⟩ <;> rw [e]
  · exact seqStep_next hs.positionOk hs.valid_of_busy
  · exact ⟨_, rfl⟩
  · exact ⟨_, rfl⟩
  · exact seqStep_next (s := s.passSched) hs.positionOk hs.valid_of_busy

theorem commandPort_next (s : State) : ∃ t, commandPort s = .next t := by
  rcases commandPort_cases s with ⟨-, e⟩ | ⟨_, _, -, -, e⟩ | ⟨_, i, -, -, e⟩ <;> rw [e]
  · exact ⟨_, rfl⟩
  · exact ⟨_, rfl⟩
  · exact exec_next i _

/-- A step that the invariant makes possible. -/
theorem State.Inv.step_next {s : State} (hs : s.Inv) : ∃ t, step s = .next t := by
  cases hrst : s.rstHigh with
  | true => exact ⟨_, step_of_rstHigh hrst⟩
  | false =>
    cases hb : s.busy with
    | true =>
      rw [step_of_busy hrst hb]
      exact runBusy_next (s := s.passRst) hs
    | false =>
      rw [step_of_rstLow hrst]
      by_cases hr : s.rsp = none
      · rw [cycle_of_open (s := s.passRst) hb hr]
        exact commandPort_next _
      · exact ⟨_, cycle_of_rsp (s := s.passRst) hb hr⟩

/-- Settles O52: `rst`, a response and a command never stop the machine, and a running ENCODE is within its bounds. -/
theorem invariantNeverStops : Obligations.InvariantNeverStops := by
  unfold Obligations.InvariantNeverStops
  exact fun s => State.Inv.step_next

end Sys2Proof.Machine

/-! ### The bytes a running ENCODE owes, and the steps of the sequencer it has left (O53) -/

namespace Sys2Proof.Machine

/-! #### What remains, unfolded by one strip, one color or one column -/

section
variable {s : State} {k i x : Nat} {c : Color}

theorem State.stripsFrom_of_lt (hk : k < s.strips) : s.stripsFrom k = s.stripBlock k ++ s.stripsFrom (k + 1) := by
  obtain ⟨n, hn⟩ : ∃ n, s.strips - k = n + 1 := ⟨s.strips - k - 1, by omega⟩
  have hn' : s.strips - (k + 1) = n := by omega
  simp only [State.stripsFrom, hn, hn', List.range'_succ, List.flatMap_cons]

theorem State.stripsFrom_of_ge (hk : s.strips ≤ k) : s.stripsFrom k = [] := by
  simp [State.stripsFrom, Nat.sub_eq_zero_of_le hk]

theorem State.blocksFrom_of_getElem? (hc : s.clist[i]? = some c) :
    s.blocksFrom i = s.colorBlock s.strip.toNat c ++ s.blocksFrom (i + 1) := by
  obtain ⟨hi, rfl⟩ := List.getElem?_eq_some_iff.1 hc
  simp only [State.blocksFrom, List.drop_eq_getElem_cons hi, List.flatMap_cons]

theorem State.blocksFrom_of_none (hc : s.clist[i]? = none) : s.blocksFrom i = [] := by
  simp [State.blocksFrom, List.drop_eq_nil_of_le (List.getElem?_eq_none_iff.1 hc)]

theorem State.crbsFrom_of_lt (hx : x < s.width.toNat) : s.crbsFrom k c x = s.crb k c x :: s.crbsFrom k c (x + 1) := by
  obtain ⟨n, hn⟩ : ∃ n, s.width.toNat - x = n + 1 := ⟨s.width.toNat - x - 1, by omega⟩
  have hn' : s.width.toNat - (x + 1) = n := by omega
  simp only [State.crbsFrom, hn, hn', List.range'_succ, List.map_cons]

theorem State.crbsFrom_of_ge (hx : s.width.toNat ≤ x) : s.crbsFrom k c x = [] := by
  simp [State.crbsFrom, Nat.sub_eq_zero_of_le hx]

/-- R101: a color block begins with its number, and then the compressor starts at `(0, 0)`. -/
theorem State.colorBlock_eq (s : State) (k : Nat) (c : Color) :
    s.colorBlock k c = chHash :: (dec c.toNat ++ rleFrom 0 0 (s.crbsFrom k c 0) ++ [chDollar]) := by
  rw [rleFrom_eq_rle]
  rfl

/-! #### The registers of the sequencer do not wrap where the invariant holds (10_state.md R17) -/

theorem State.strip_lt_height (hk : s.strip.toNat < s.strips) : s.strip.toNat < s.height.toNat :=
  hk.trans_le (Nat.div_le_self _ _)

theorem State.runOk.runCount_le (h : s.runOk) : s.runCount.toNat ≤ s.x.toNat := by
  unfold State.runOk at h
  split at h
  · obtain ⟨-, h0⟩ := h
    simp [h0]
  · obtain ⟨-, -, -, hle⟩ := h
    exact hle

/-- R81: a position in the colors of a strip is below 65536. -/
theorem State.cidx_add_one (hcl : s.clist = s.colors k) (hc : s.clist[s.cidx.toNat]? = some c) :
    (s.cidx + 1).toNat = s.cidx.toNat + 1 := by
  have hlt : s.cidx.toNat < s.clist.length := (List.getElem?_eq_some_iff.1 hc).1
  have hlen : s.clist.length ≤ 65536 := hcl ▸ length_le_of_nodup (nodup_discover _)
  rw [BitVec.toNat_add]
  exact Nat.mod_eq_of_lt (by simp; omega)

end

/-! #### The bytes to come (R116) -/

section
variable {s t : State}

theorem State.toCome_of_idle (hp : s.phase = .idle) : s.toCome = [] := by simp [State.toCome, hp]

theorem State.toCome_of_stripBegin (hp : s.phase = .stripBegin) : s.toCome = s.stripsFrom s.strip.toNat := by
  simp [State.toCome, hp]

theorem State.toCome_of_colorBegin (hp : s.phase = .colorBegin) :
    s.toCome = s.blocksFrom s.cidx.toNat ++ s.afterColors := by
  simp [State.toCome, hp]

theorem State.toCome_of_column (hp : s.phase = .column) : s.toCome =
    rleFrom s.lastByte s.runCount.toNat (s.crbsFrom s.strip.toNat s.cur s.x.toNat) ++
      chDollar :: (s.blocksFrom (s.cidx.toNat + 1) ++ s.afterColors) := by
  simp [State.toCome, hp]

theorem State.toCome_of_stripEnd (hp : s.phase = .stripEnd) : s.toCome = s.afterColors := by simp [State.toCome, hp]

theorem State.toCome_of_finish (hp : s.phase = .finish) : s.toCome = [] := by simp [State.toCome, hp]

theorem State.toCome_nextColumn (hp : s.phase = .column) (bs : List Byte) (b : Byte) :
    ((s.push bs).feedRun b).nextColumn.toCome =
      rleFrom b (if b = s.lastByte then s.runCount + 1 else 1).toNat (s.crbsFrom s.strip.toNat s.cur (s.x + 1).toNat) ++
      chDollar :: (s.blocksFrom (s.cidx.toNat + 1) ++ s.afterColors) :=
  State.toCome_of_column (s := ((s.push bs).feedRun b).nextColumn) hp

/-- R116: a sequencer step pushes the front of what is to come. -/
theorem SeqMove.toCome (h : SeqMove s t) (hpos : s.positionOk) : s.toCome = s.seqBytes ++ t.toCome := by
  cases h with
  | stay hp => simp [State.seqBytes, hp]
  | lastStrip hp hk =>
    rw [State.toCome_of_stripBegin hp, State.stripsFrom_of_ge hk.ge]
    simp [State.seqBytes, hp, State.toCome_of_finish (s := s.enter .finish) rfl]
  | discover hp hr =>
    obtain ⟨-, hk⟩ := State.stripReadable_iff.1 hr
    have ht : s.firstColor.toCome = (s.colors s.strip.toNat).flatMap (s.colorBlock s.strip.toNat) ++
        chDash :: s.stripsFrom (s.strip.toNat + 1) := rfl
    rw [State.toCome_of_stripBegin hp, State.stripsFrom_of_lt hk, ht]
    simp [State.seqBytes, hp, State.stripBlock]
  | noColor hp hc =>
    have ht : (s.enter .stripEnd).toCome = s.afterColors := rfl
    rw [State.toCome_of_colorBegin hp, State.blocksFrom_of_none hc, ht]
    simp [State.seqBytes, hp, hc]
  | @color c hp hc =>
    have ht : ((s.push s.seqBytes).firstColumn c).toCome = rleFrom 0 0 (s.crbsFrom s.strip.toNat c 0) ++
        chDollar :: (s.blocksFrom (s.cidx.toNat + 1) ++ s.afterColors) := rfl
    rw [State.toCome_of_colorBegin hp, State.blocksFrom_of_getElem? hc, State.colorBlock_eq, ht,
      State.seqBytes_color hp hc]
    simp
  | column hp hx hr =>
    simp only [State.positionOk, hp] at hpos
    obtain ⟨-, -, -, -, hrun⟩ := hpos
    have hx' := toNat_add_one_of_lt hx
    have hn' := toNat_add_one_of_lt (hrun.runCount_le.trans_lt hx)
    rw [State.toCome_of_column hp, State.crbsFrom_of_lt hx, ← State.curByte, State.toCome_nextColumn hp, hx',
      State.seqBytes_column hp hx]
    by_cases hb : s.curByte = s.lastByte
    · rw [if_pos hb, if_pos hb, hn', rleFrom, if_pos hb, hb]
      rfl
    · simp only [if_neg hb, rleFrom, State.flushPending, List.append_assoc]
      rfl
  | lastColumn hp hx =>
    simp only [State.positionOk, hp] at hpos
    obtain ⟨-, hcl, hcur, -, -⟩ := hpos
    have ht : (s.push s.seqBytes).nextColor.toCome = s.blocksFrom (s.cidx + 1).toNat ++ s.afterColors := rfl
    rw [State.toCome_of_column hp, State.crbsFrom_of_ge (Nat.le_of_not_lt hx), ht, State.cidx_add_one hcl hcur,
      State.seqBytes_lastColumn hp hx]
    simp [rleFrom, State.flushPending]
  | stripEnd hp =>
    simp only [State.positionOk, hp] at hpos
    have ht : (s.push s.seqBytes).nextStrip.toCome = s.stripsFrom (s.strip + 1).toNat := rfl
    rw [State.toCome_of_stripEnd hp, ht, toNat_add_one_of_lt (State.strip_lt_height hpos), State.seqBytes_stripEnd hp]
    rfl
  | finish hp =>
    rw [State.toCome_of_finish hp, State.toCome_of_idle rfl]
    simp [State.seqBytes, hp]

end

/-! #### The sequencer steps left (R118) -/

/-- The sequencer steps from `STRIP_BEGIN` of strip `k` on, `FINISH` included: `m * (width + 2) + 3` for each strip of
`m` colors, then the last `STRIP_BEGIN` and `FINISH` (R118). -/
def State.stripsLeft (s : State) (k : Nat) : Nat :=
  ((List.range' k (s.strips - k)).map fun j => (s.colors j).length * (s.width.toNat + 2) + 3).sum + 2

/-- The sequencer steps from `COLOR_BEGIN` of position `i` in `clist` on: `width + 2` for each color, then the last
`COLOR_BEGIN` and `STRIP_END` (R118). -/
def State.colorsLeft (s : State) (i : Nat) : Nat :=
  (s.clist.length - i) * (s.width.toNat + 2) + 2 + s.stripsLeft (s.strip.toNat + 1)

/-- The sequencer steps that a running ENCODE has left, `FINISH` included. -/
def State.seqLeft (s : State) : Nat :=
  match s.phase with
  | .idle => 0
  | .stripBegin => s.stripsLeft s.strip.toNat
  | .colorBegin => s.colorsLeft s.cidx.toNat
  | .column => s.width.toNat - s.x.toNat + 1 + s.colorsLeft (s.cidx.toNat + 1)
  | .stripEnd => 1 + s.stripsLeft (s.strip.toNat + 1)
  | .finish => 1

section
variable {s t : State} {k i : Nat}

theorem State.stripsLeft_of_lt (hk : k < s.strips) :
    s.stripsLeft k = (s.colors k).length * (s.width.toNat + 2) + 3 + s.stripsLeft (k + 1) := by
  obtain ⟨n, hn⟩ : ∃ n, s.strips - k = n + 1 := ⟨s.strips - k - 1, by omega⟩
  have hn' : s.strips - (k + 1) = n := by omega
  simp only [State.stripsLeft, hn, hn', List.range'_succ, List.map_cons, List.sum_cons, Nat.add_assoc]

theorem State.stripsLeft_of_ge (hk : s.strips ≤ k) : s.stripsLeft k = 2 := by
  simp [State.stripsLeft, Nat.sub_eq_zero_of_le hk]

theorem State.colorsLeft_of_lt (hi : i < s.clist.length) :
    s.colorsLeft i = s.width.toNat + 2 + s.colorsLeft (i + 1) := by
  obtain ⟨n, hn⟩ : ∃ n, s.clist.length - i = n + 1 := ⟨s.clist.length - i - 1, by omega⟩
  have hn' : s.clist.length - (i + 1) = n := by omega
  simp only [State.colorsLeft, hn, hn', Nat.succ_mul]
  omega

theorem State.colorsLeft_of_ge (hi : s.clist.length ≤ i) : s.colorsLeft i = 2 + s.stripsLeft (s.strip.toNat + 1) := by
  simp [State.colorsLeft, Nat.sub_eq_zero_of_le hi]

theorem State.seqLeft_of_stripBegin (hp : s.phase = .stripBegin) : s.seqLeft = s.stripsLeft s.strip.toNat := by
  simp [State.seqLeft, hp]

theorem State.seqLeft_of_colorBegin (hp : s.phase = .colorBegin) : s.seqLeft = s.colorsLeft s.cidx.toNat := by
  simp [State.seqLeft, hp]

theorem State.seqLeft_of_column (hp : s.phase = .column) :
    s.seqLeft = s.width.toNat - s.x.toNat + 1 + s.colorsLeft (s.cidx.toNat + 1) := by
  simp [State.seqLeft, hp]

theorem State.seqLeft_of_stripEnd (hp : s.phase = .stripEnd) : s.seqLeft = 1 + s.stripsLeft (s.strip.toNat + 1) := by
  simp [State.seqLeft, hp]

theorem State.seqLeft_of_finish (hp : s.phase = .finish) : s.seqLeft = 1 := by simp [State.seqLeft, hp]

theorem State.seqLeft_nextColumn (hp : s.phase = .column) (bs : List Byte) (b : Byte) :
    ((s.push bs).feedRun b).nextColumn.seqLeft =
      s.width.toNat - (s.x + 1).toNat + 1 + s.colorsLeft (s.cidx.toNat + 1) :=
  State.seqLeft_of_column (s := ((s.push bs).feedRun b).nextColumn) hp

/-- R118: each sequencer step is one fewer left. -/
theorem SeqMove.seqLeft (h : SeqMove s t) (hpos : s.positionOk) (hb : s.phase ≠ .idle) : s.seqLeft = t.seqLeft + 1 := by
  cases h with
  | stay hp => exact absurd hp hb
  | lastStrip hp hk => rw [State.seqLeft_of_stripBegin hp, State.stripsLeft_of_ge hk.ge, State.seqLeft_of_finish rfl]
  | discover hp hr =>
    obtain ⟨-, hk⟩ := State.stripReadable_iff.1 hr
    have ht : s.firstColor.seqLeft = (s.colors s.strip.toNat).length * (s.width.toNat + 2) + 2 +
        s.stripsLeft (s.strip.toNat + 1) := rfl
    rw [State.seqLeft_of_stripBegin hp, State.stripsLeft_of_lt hk, ht]
    omega
  | noColor hp hc =>
    have ht : (s.enter .stripEnd).seqLeft = 1 + s.stripsLeft (s.strip.toNat + 1) := rfl
    rw [State.seqLeft_of_colorBegin hp, State.colorsLeft_of_ge (List.getElem?_eq_none_iff.1 hc), ht]
    omega
  | @color c hp hc =>
    have ht : ((s.push s.seqBytes).firstColumn c).seqLeft = s.width.toNat + 1 + s.colorsLeft (s.cidx.toNat + 1) := rfl
    rw [State.seqLeft_of_colorBegin hp, State.colorsLeft_of_lt (List.getElem?_eq_some_iff.1 hc).1, ht]
    omega
  | column hp hx hr =>
    rw [State.seqLeft_of_column hp, State.seqLeft_nextColumn hp, toNat_add_one_of_lt hx]
    omega
  | lastColumn hp hx =>
    simp only [State.positionOk, hp] at hpos
    obtain ⟨-, hcl, hcur, -, -⟩ := hpos
    have ht : (s.push s.seqBytes).nextColor.seqLeft = s.colorsLeft (s.cidx + 1).toNat := rfl
    rw [State.seqLeft_of_column hp, ht, State.cidx_add_one hcl hcur]
    omega
  | stripEnd hp =>
    simp only [State.positionOk, hp] at hpos
    have ht : (s.push s.seqBytes).nextStrip.seqLeft = s.stripsLeft (s.strip + 1).toNat := rfl
    rw [State.seqLeft_of_stripEnd hp, ht, toNat_add_one_of_lt (State.strip_lt_height hpos), Nat.add_comm]
  | finish hp => rw [State.seqLeft_of_finish hp]; rfl

end

/-! #### What a step of a running ENCODE makes of them -/

/-- The bytes that a running ENCODE has still to deliver: those in `oq`, then those still to be pushed. -/
def State.owed (s : State) : List Byte := s.oq ++ s.toCome

theorem State.account_eq (s : State) : s.account = s.env.stream ++ s.owed := List.append_assoc ..

/-- What a step of a running ENCODE can do: a sequencer step, the last of them, or an offer that is not answered,
accepted or failed. Each says what becomes of the bytes owed and of the steps left. -/
inductive EncodeMove (s t : State) : Prop
  | sequencer (hb : t.busy = true) (howed : t.owed = s.owed) (hleft : s.seqLeft = t.seqLeft + 1)
      (hans : t.env.answers = s.env.answers) (hstream : t.env.stream = s.env.stream)
  | finish (hp : t.phase = .idle) (howed : s.owed = []) (hleft : s.seqLeft = 1) (hrsp : t.rsp = some (rspWord .ok 0))
      (hstream : t.env.stream = s.env.stream)
  | wait {b : Byte} {bs : List Byte} (hb : t.busy = true) (hs : s.owed = b :: bs) (howed : t.owed = s.owed)
      (ha : ∀ a, s.env.answers.head? ≠ some (some a))
      (hstream : t.env.stream = s.env.stream)
  | accept {b : Byte} (hb : t.busy = true) (howed : s.owed = b :: t.owed) (hleft : t.seqLeft = s.seqLeft)
      (ha : s.env.answers.head? = some (some .accept)) (hans : t.env.answers = s.env.answers.tail)
      (hstream : t.env.stream = s.env.stream ++ [b])
  | fail {b : Byte} {bs : List Byte} (hp : t.phase = .idle) (howed : s.owed = b :: bs)
      (ha : s.env.answers.head? = some (some .fail)) (hrsp : t.rsp = some (rspWord .errSink 0))
      (hstream : t.env.stream = s.env.stream)

theorem SeqMove.owed {s t : State} (h : SeqMove s t) (hpos : s.positionOk) : t.owed = s.owed := by
  rw [State.owed, State.owed, h.oq_eq, h.toCome hpos, List.append_assoc]

theorem SeqMove.encodeMove {s t : State} (h : SeqMove s t) (hs : s.Inv) (hp : s.phase ≠ .idle)
    (hf : s.phase = .finish → s.oq = []) : EncodeMove s t := by
  obtain ⟨-, -, he⟩ := h.frame
  have hstream := congrArg Env.stream he
  by_cases hfin : s.phase = .finish
  · cases h with
    | finish =>
      have howed : s.owed = [] := by rw [State.owed, hf hfin, State.toCome_of_finish hfin, List.append_nil]
      exact .finish rfl howed (State.seqLeft_of_finish hfin) rfl hstream
    | _ => simp_all
  · obtain ⟨hidle, -⟩ := h.running hp hfin
    exact .sequencer (State.busy_eq_true_iff.2 hidle) (h.owed hs.positionOk) (h.seqLeft hs.positionOk hp)
      (congrArg Env.answers he) hstream

theorem State.drain_encodeMove {s : State} {b : Byte} {rest : List Byte} (hq : s.oq = b :: rest)
    (hb : s.busy = true) : EncodeMove s (s.drain b rest) := by
  have hs : s.owed = b :: (rest ++ s.toCome) := by rw [State.owed, hq, List.cons_append]
  rcases s.drain_cases b rest with ⟨ha, e⟩ | ⟨ha, e⟩ | ⟨ha, e⟩ <;> rw [e]
  · exact .wait hb hs rfl (fun a h => by cases ha.symm.trans (headD_none_eq_some.2 h)) rfl
  · exact .accept hb hs rfl (headD_none_eq_some.1 ha) rfl rfl
  · exact .fail rfl hs (headD_none_eq_some.1 ha) rfl rfl

/-- The levels of `rst` and the schedule are no part of what an `EncodeMove` speaks of. -/
theorem EncodeMove.of_env {s t : State} {e : Env} (ha : e.answers = s.env.answers) (hs : e.stream = s.env.stream)
    (h : EncodeMove { s with env := e } t) : EncodeMove s t := by
  cases h with
  | sequencer hb howed hleft hans hstream => exact .sequencer hb howed hleft (hans.trans ha) (hstream.trans hs)
  | finish hp howed hleft hrsp hstream => exact .finish hp howed hleft hrsp (hstream.trans hs)
  | wait hb hb' howed hno hstream => exact .wait hb hb' howed (ha ▸ hno) (hstream.trans hs)
  | accept hb howed hleft hyes hans hstream =>
    exact .accept hb howed hleft (ha ▸ hyes) (hans.trans (congrArg _ ha)) (hstream.trans (congrArg (· ++ _) hs))
  | fail hp howed hfail hrsp hstream => exact .fail hp howed (ha ▸ hfail) hrsp (hstream.trans hs)

/-- A step of a running ENCODE. -/
theorem StepMove.encodeMove {s t : State} (h : StepMove s t) (hs : s.Inv) (hb : s.busy = true)
    (hrst : s.rstHigh = false) : EncodeMove s t := by
  have hp := State.busy_eq_true_iff.1 hb
  cases h with
  | reset h => simp [hrst] at h
  | seqOnEmpty _ _ hq h => exact .of_env (e := s.passRst.env) rfl rfl (h.encodeMove (s := s.passRst) hs hp fun _ => hq)
  | seqByChoice _ _ _ he h =>
    obtain ⟨hf, -⟩ := State.seqEnabled_iff.1 he
    exact .of_env (e := s.passRst.passSched.env) rfl rfl
      (h.encodeMove (s := s.passRst.passSched) hs hp fun h => absurd h hf)
  | offer _ _ hq => exact .of_env (e := s.passRst.env) rfl rfl (State.drain_encodeMove (s := s.passRst) hq hb)
  | offerByChoice _ _ hq =>
    exact .of_env (e := s.passRst.passSched.env) rfl rfl (State.drain_encodeMove (s := s.passRst.passSched) hq hb)
  | response _ h => simp [hb] at h
  | noWord _ h => simp [hb] at h
  | illegal _ h => simp [hb] at h
  | command _ h => simp [hb] at h

theorem State.Inv.owed_of_idle {s : State} (h : s.Inv) (hp : s.phase = .idle) : s.owed = [] := by
  rw [State.owed, h.oq_of_idle hp, State.toCome_of_idle hp, List.append_nil]

/-- Settles O53: what is owed shrinks only by what is delivered, unless the sink fails. -/
theorem encodeKeepsAccount : Obligations.EncodeKeepsAccount := by
  unfold Obligations.EncodeKeepsAccount
  intro s t hs hb hrst h
  rw [State.account_eq, State.account_eq]
  cases (stepMove_of_step h).encodeMove hs hb hrst with
  | sequencer _ howed _ _ hstream => exact .inl (by rw [howed, hstream])
  | finish hp howed _ _ hstream =>
    have ht : t.Inv := (stepMove_of_step h).keeps_Inv hs
    exact .inl (by rw [ht.owed_of_idle hp, howed, hstream])
  | wait _ _ howed _ hstream => exact .inl (by rw [howed, hstream])
  | accept _ howed _ _ _ hstream => exact .inl (by rw [howed, hstream, List.append_assoc, List.singleton_append])
  | fail hp _ ha hrsp hstream => exact .inr ⟨ha, hstream, hp, hrsp.trans (congrArg some rspWord_errSink)⟩

end Sys2Proof.Machine

/-! ### A whole ENCODE (O54 to O57) -/

namespace Sys2Proof.Machine

/-! #### One step of an ENCODE, with `rst` low -/

/-- An ENCODE is running, in a state with the invariant, and `rst` stays low. -/
structure State.Encoding (s : State) : Prop where
  inv : s.Inv
  busy : s.busy = true
  rst : s.env.rst = []

/-- The step from `s` to `t` leaves the invariant, the image, the level of `rst` and the host's side as they are. -/
structure KeepsRest (s t : State) : Prop where
  inv : t.Inv
  image : s.sameImage t
  rst : t.env.rst = []
  cmds : t.env.cmds = s.env.cmds
  received : t.env.received = s.env.received

/-- A step of a busy block takes no word and hands over no response (70_reset_and_hazards.md R146). -/
theorem StepMove.host_of_busy {s t : State} (h : StepMove s t) (hb : s.busy = true) (hrst : s.rstHigh = false) :
    t.env.cmds = s.env.cmds ∧ t.env.received = s.env.received := by
  cases h with
  | reset h => simp [hrst] at h
  | seqOnEmpty _ _ _ h =>
    obtain ⟨-, -, he⟩ := h.frame
    simp [he]
  | seqByChoice _ _ _ _ h =>
    obtain ⟨-, -, he⟩ := h.frame
    simp [he]
  | @offer b rest =>
    obtain ⟨-, bs, he⟩ := s.passRst.drain_outside b rest
    simp [he]
  | @offerByChoice b rest =>
    obtain ⟨-, bs, he⟩ := s.passRst.passSched.drain_outside b rest
    simp [he]
  | response _ h => simp [hb] at h
  | noWord _ h => simp [hb] at h
  | illegal _ h => simp [hb] at h
  | command _ h => simp [hb] at h

section
variable {s t : State}

theorem State.rstHigh_of_nil (h : s.env.rst = []) : s.rstHigh = false := by simp [State.rstHigh, h]

/-- What a step of a running ENCODE leaves as it is, and what it can do. -/
theorem State.Encoding.step_cases (hs : s.Encoding) (h : step s = .next t) : KeepsRest s t ∧ EncodeMove s t := by
  have hm := stepMove_of_step h
  have hrst := State.rstHigh_of_nil hs.rst
  obtain ⟨hcmds, hreceived⟩ := hm.host_of_busy hs.busy hrst
  obtain ⟨-, htail, -⟩ := hm.consumed
  have hlow : t.env.rst = [] := by rw [htail, hs.rst, List.tail_nil]
  exact ⟨⟨hm.keeps_Inv hs.inv, hm.sameImage_of_busy hs.busy hrst, hlow, hcmds, hreceived⟩,
    hm.encodeMove hs.inv hs.busy hrst⟩

theorem KeepsRest.encoding (h : KeepsRest s t) (hb : t.busy = true) : t.Encoding := ⟨h.inv, hb, h.rst⟩

/-! #### The start (R108) -/

/-- R108: the step that accepts the command. -/
theorem State.encodeOffered.step_eq (h : s.encodeOffered) : step s = .next s.passCmd.firstStrip := by
  obtain ⟨-, hp, hr, hv, hrst, hw⟩ := h
  rw [step_of_encodeWord (State.rstHigh_of_nil hrst) hp hr hw, State.passRst_of_nil hrst]
  exact exec_encode_ok (s := s.passCmd) hv

theorem State.encodeOffered.encoding (h : s.encodeOffered) : s.passCmd.firstStrip.Encoding := by
  have hstep := stepMove_of_step h.step_eq
  obtain ⟨hs, -, -, -, hrst, -⟩ := h
  exact ⟨hstep.keeps_Inv hs, rfl, hrst⟩

theorem State.encodeOffered.owed_eq (h : s.encodeOffered) : s.passCmd.firstStrip.owed = s.encodeImage := by
  obtain ⟨hs, hp, -⟩ := h
  exact congrArg (· ++ s.encodeImage) (hs.oq_of_idle hp)

theorem State.seqSteps_eq (s : State) : s.seqSteps = s.passCmd.firstStrip.seqLeft + 1 := by
  have hleft : s.passCmd.firstStrip.seqLeft = s.stripsLeft 0 := rfl
  rw [hleft, State.seqSteps, State.stripsLeft, List.range_eq_range', Nat.sub_zero]
  omega

/-! #### A sink that answers at once -/

theorem State.sinkAccepts.head {n : Nat} (h : s.sinkAccepts (n + 1)) :
    s.env.answers.head? = some (some .accept) := by
  rw [List.head?_eq_getElem?]
  exact h 0 (Nat.succ_pos n)

/-- One answer used. -/
theorem State.sinkAccepts.tail {n : Nat} (h : s.sinkAccepts (n + 1)) (ht : t.env.answers = s.env.answers.tail) :
    t.sinkAccepts n := fun j hj => by
  rw [ht, List.getElem?_tail]
  exact h (j + 1) (Nat.succ_lt_succ hj)

theorem State.sinkAccepts.congr {n : Nat} (h : s.sinkAccepts n) (ht : t.env.answers = s.env.answers) :
    t.sinkAccepts n := fun j hj => by
  rw [ht]
  exact h j hj

end

/-- The sink answers at once. It accepts every byte owed, and the ENCODE will end with `OK`; or it accepts `k` of them
and fails the next, and the ENCODE will end with `ERR_SINK`. -/
inductive State.SinkTakes (s : State) : Nat → Status → Prop
  | all (ha : s.sinkAccepts s.owed.length) : s.SinkTakes s.owed.length .ok
  | fails {k : Nat} (hk : k < s.owed.length) (ha : s.sinkAccepts k) (hf : s.env.answers[k]? = some (some .fail)) :
      s.SinkTakes k .errSink

section
variable {s t : State} {k : Nat} {st : Status} {b : Byte} {bs : List Byte}

theorem State.SinkTakes.congr (h : s.SinkTakes k st) (howed : t.owed = s.owed)
    (hans : t.env.answers = s.env.answers) : t.SinkTakes k st := by
  cases h with
  | all ha => exact howed ▸ .all (howed ▸ ha.congr hans)
  | fails hk ha hf => exact .fails (howed ▸ hk) (ha.congr hans) (hans ▸ hf)

theorem State.SinkTakes.of_owed_nil (h : s.SinkTakes k st) (howed : s.owed = []) : k = 0 ∧ st = .ok := by
  cases h with
  | all ha => exact ⟨by rw [howed, List.length_nil], rfl⟩
  | fails hk => simp [howed] at hk

/-- The answer to the next offer: a byte is accepted, or the ENCODE ends here. -/
theorem State.SinkTakes.head (h : s.SinkTakes k st) (howed : s.owed = b :: bs) :
    (∃ j, k = j + 1) ∧ s.env.answers.head? = some (some .accept) ∨
      (k = 0 ∧ st = .errSink) ∧ s.env.answers.head? = some (some .fail) := by
  cases h with
  | all ha =>
    rw [howed] at ha
    exact .inl ⟨⟨bs.length, by rw [howed, List.length_cons]⟩, ha.head⟩
  | fails hk ha hf =>
    cases k with
    | zero => exact .inr ⟨⟨rfl, rfl⟩, List.head?_eq_getElem?.trans hf⟩
    | succ j => exact .inl ⟨⟨j, rfl⟩, ha.head⟩

/-- After a byte accepted, the sink takes one fewer. -/
theorem State.SinkTakes.tail (h : s.SinkTakes (k + 1) st) (howed : s.owed = b :: t.owed)
    (hans : t.env.answers = s.env.answers.tail) : t.SinkTakes k st := by
  have hlen : s.owed.length = t.owed.length + 1 := by rw [howed, List.length_cons]
  generalize hk : k + 1 = k' at h
  cases h with
  | all ha =>
    obtain rfl : k = t.owed.length := by omega
    exact .all ((hlen ▸ ha).tail hans)
  | fails hlt ha hf =>
    subst hk
    exact .fails (by omega) (ha.tail hans) (by rw [hans, List.getElem?_tail]; exact hf)

end

/-- `n` steps lead from `s` to `t`, where the ENCODE has ended with the status `st`, the sink having got `bs`. -/
structure EndsIn (s : State) (n : Nat) (st : Status) (bs : List Byte) (t : State) : Prop where
  run : Host.Core.run Sys2Proof.core n s = .next t
  idle : t.phase = .idle
  rsp : t.rsp = some (rspWord st 0)
  stream : t.env.stream = s.env.stream ++ bs
  image : s.sameImage t
  cmds : t.env.cmds = s.env.cmds

section
variable {s t u : State} {n : Nat} {st : Status} {bs : List Byte}

/-- The last step. -/
theorem EndsIn.last (h : step s = .next t) (hk : KeepsRest s t) (hp : t.phase = .idle)
    (hr : t.rsp = some (rspWord st 0)) (hstream : t.env.stream = s.env.stream) : EndsIn s 1 st [] t :=
  ⟨run_succ 0 h, hp, hr, by rw [hstream, List.append_nil], hk.image, hk.cmds⟩

/-- A step before others, in which the sink gets `p`. -/
theorem EndsIn.cons {p : List Byte} (h : step s = .next u) (hk : KeepsRest s u)
    (hstream : u.env.stream = s.env.stream ++ p) (ht : EndsIn u n st bs t) : EndsIn s (n + 1) st (p ++ bs) t :=
  ⟨(run_succ n h).trans ht.run, ht.idle, ht.rsp, by rw [ht.stream, hstream, List.append_assoc],
    hk.image.trans ht.image, ht.cmds.trans hk.cmds⟩

/-- A step before others, in which the sink gets nothing. -/
theorem EndsIn.cons_nil (h : step s = .next u) (hk : KeepsRest s u) (hstream : u.env.stream = s.env.stream)
    (ht : EndsIn u n st bs t) : EndsIn s (n + 1) st bs t :=
  EndsIn.cons (p := []) h hk (by rw [hstream, List.append_nil]) ht

theorem State.Encoding.seqLeft_pos (hs : s.Encoding) : 0 < s.seqLeft := by
  have hp := State.busy_eq_true_iff.1 hs.busy
  unfold State.seqLeft State.colorsLeft State.stripsLeft
  split
  · exact absurd ‹_› hp
  all_goals omega

/-- With a sink that answers at once and stops at byte `k`, each step is a sequencer step, delivers one byte, or is the
one that fails. -/
theorem State.Encoding.endsIn {k : Nat} (hs : s.Encoding) (hk : s.SinkTakes k st) :
    ∃ m t, EndsIn s m st (s.owed.take k) t ∧ (st = .ok → m = s.seqLeft + s.owed.length) := by
  induction hn : s.seqLeft + s.owed.length generalizing s k with
  | zero => exact absurd hn (by have := hs.seqLeft_pos; omega)
  | succ n ih =>
    obtain ⟨u, hu⟩ := hs.inv.step_next
    obtain ⟨hrest, hm⟩ := hs.step_cases hu
    cases hm with
    | sequencer hb howed hleft hans hstream =>
      obtain ⟨m, t, ht, hm⟩ := ih (hrest.encoding hb) (hk.congr howed hans) (by rw [howed]; omega)
      exact ⟨m + 1, t, howed ▸ ht.cons_nil hu hrest hstream, fun h => congrArg _ (hm h)⟩
    | finish hp howed hleft hrsp hstream =>
      obtain ⟨rfl, rfl⟩ := hk.of_owed_nil howed
      exact ⟨1, u, howed ▸ EndsIn.last hu hrest hp hrsp hstream, fun _ => by simpa [howed, hleft] using hn⟩
    | wait _ howed _ hno =>
      rcases hk.head howed with ⟨-, ha⟩ | ⟨-, ha⟩
      · exact absurd ha (hno _)
      · exact absurd ha (hno _)
    | @accept b hb howed hleft hyes hans hstream =>
      obtain ⟨⟨j, rfl⟩, -⟩ := (hk.head howed).resolve_right (by simp [hyes])
      obtain ⟨m, t, ht, hm⟩ := ih (hrest.encoding hb) (hk.tail howed hans)
        (by rw [howed, List.length_cons] at hn; omega)
      exact ⟨m + 1, t, howed ▸ ht.cons hu hrest hstream, fun h => congrArg _ (hm h)⟩
    | fail hp howed hno hrsp hstream =>
      obtain ⟨⟨rfl, rfl⟩, -⟩ := (hk.head howed).resolve_left (by simp [hno])
      exact ⟨1, u, EndsIn.last hu hrest hp hrsp hstream, nofun⟩

end

/-- The whole of an ENCODE, its start included. -/
theorem State.encodeOffered.endsIn {s : State} {k : Nat} {st : Status} (h : s.encodeOffered)
    (hk : s.passCmd.firstStrip.SinkTakes k st) : ∃ m t, Host.Core.run Sys2Proof.core m s = .next t ∧ t.phase = .idle ∧
      t.rsp = some (rspWord st 0) ∧ t.env.stream = s.env.stream ++ s.encodeImage.take k ∧ s.sameImage t ∧
      t.env.cmds = s.env.cmds.tail ∧ (st = .ok → m = s.seqSteps + s.encodeImage.length) := by
  obtain ⟨m, t, ht, hm⟩ := h.encoding.endsIn hk
  rw [h.owed_eq] at ht hm
  refine ⟨m + 1, t, (run_succ m h.step_eq).trans ht.run, ht.idle, ht.rsp, ht.stream, ht.image, ht.cmds, fun hok => ?_⟩
  rw [hm hok, s.seqSteps_eq, Nat.add_right_comm]

/-- Settles O54: the sink takes all that is owed after the start. -/
theorem encodeRunsToCompletion : Obligations.EncodeRunsToCompletion := by
  unfold Obligations.EncodeRunsToCompletion
  intro s h ha
  have hall : s.passCmd.firstStrip.SinkTakes s.encodeImage.length .ok := h.owed_eq ▸ .all (h.owed_eq.symm ▸ ha)
  obtain ⟨m, t, hrun, hp, hr, hstream, himg, hcmds, hm⟩ := h.endsIn hall
  rw [List.take_length] at hstream
  exact ⟨t, hm rfl ▸ hrun, hp, hr.trans (congrArg some rspWord_ok_zero), hstream, himg, hcmds⟩

/-- Settles O56: the sink takes `k` of the bytes owed after the start, and fails the next. -/
theorem encodeFailsAtAnyByte : Obligations.EncodeFailsAtAnyByte := by
  unfold Obligations.EncodeFailsAtAnyByte
  intro s k h hk ha hf
  obtain ⟨m, t, hrun, hp, hr, hstream, himg, -⟩ := h.endsIn (.fails (h.owed_eq.symm ▸ hk) ha hf)
  exact ⟨m, t, hrun, hp, hr.trans (congrArg some rspWord_errSink), hstream, himg⟩

/-- Settles O57: both deliver the stream of the one image. -/
theorem encodeDependsOnImageOnly : Obligations.EncodeDependsOnImageOnly := by
  unfold Obligations.EncodeDependsOnImageOnly
  intro s t hs ht himg has hat
  have himage := State.encodeImage_congr himg
  obtain ⟨u, hu, -, hur, hus, -⟩ := encodeRunsToCompletion s hs has
  obtain ⟨v, hv, -, hvr, hvs, -⟩ := encodeRunsToCompletion t ht (himage.symm ▸ hat)
  exact ⟨s.encodeImage, _, _, u, v, hu, hv, hur, hvr, hus, himage ▸ hvs⟩

/-! #### What an ENCODE can come to (R107) -/

/-- A state with the invariant in which `rst` stays low and no command is offered. -/
structure State.Quiet (s : State) : Prop where
  inv : s.Inv
  rst : s.env.rst = []
  cmds : s.env.cmds = []

/-- How far the ENCODE accepted in `s` has come at `t`: it runs, and what it has delivered and what it owes are together
the stream; or it has ended, having delivered all of the stream or, when the sink failed, not all of it. -/
inductive EncodeStage (s t : State) : Prop
  | running {p : List Byte} (hb : t.busy = true) (hresp : t.responses = s.responses)
      (hstream : t.env.stream = s.env.stream ++ p) (howed : p ++ t.owed = s.encodeImage)
  | endedOk (hp : t.phase = .idle) (hresp : t.responses = s.responses ++ [rspWord .ok 0])
      (hstream : t.env.stream = s.env.stream ++ s.encodeImage)
  | endedErrSink {p : List Byte} (hp : t.phase = .idle) (hresp : t.responses = s.responses ++ [rspWord .errSink 0])
      (hstream : t.env.stream = s.env.stream ++ p) (hpre : p <+: s.encodeImage) (hne : p ≠ s.encodeImage)

section
variable {s t u : State}

/-- The step that ends an ENCODE issues its response. -/
theorem KeepsRest.responses_of_rsp (h : KeepsRest s t) (hs : s.rsp = none) {r : RspWord} (hr : t.rsp = some r) :
    t.responses = s.responses ++ [r] := by
  simp [State.responses, hs, hr, h.received]

theorem KeepsRest.responses_of_busy (h : KeepsRest s t) (hs : s.rsp = none) (hb : t.busy = true) :
    t.responses = s.responses := by
  simp [State.responses, hs, h.inv.rsp_of_busy hb, h.received]

theorem State.hostTakes_responses (s : State) : s.hostTakes.responses = s.responses := by
  rcases s.hostTakes_cases with e | e <;> rw [e]
  · rfl
  · simp [State.responses]

/-- With no command offered an idle block waits for the host to take the response, and then for a command. -/
theorem State.Quiet.step_idle (h : s.Quiet) (hp : s.phase = .idle) (ht : step s = .next t) :
    t = s.hostTakes ∨ t = s.passCmd := by
  have hb := State.busy_eq_false_iff.2 hp
  rw [step_of_rst_nil h.rst] at ht
  by_cases hr : s.rsp = none
  · have hport : commandPort s = .next s.passCmd := by simp [commandPort, State.offeredWord, h.cmds]
    rw [cycle_of_open hb hr, hport] at ht
    cases ht
    exact .inr rfl
  · rw [cycle_of_rsp hb hr] at ht
    cases ht
    exact .inl rfl

theorem State.Quiet.of_step (h : s.Quiet) (ht : step s = .next t) : t.Quiet ∧ s.sameImage t := by
  have hm := stepMove_of_step ht
  obtain ⟨-, hrst, hcmds, -⟩ := hm.consumed
  have hrst' : t.env.rst = [] := by rw [hrst, h.rst, List.tail_nil]
  have hcmds' : t.env.cmds = [] := by simpa [h.cmds] using hcmds
  refine ⟨⟨hm.keeps_Inv h.inv, hrst', hcmds'⟩, ?_⟩
  rcases hm.sameImage_or_command (State.rstHigh_of_nil h.rst) with himg | ⟨-, -, w, i, hw, -⟩
  · exact himg
  · simp [h.cmds] at hw

/-- An idle block delivers nothing and issues no response. -/
theorem State.Quiet.frame_of_idle (h : s.Quiet) (hp : s.phase = .idle) (ht : step s = .next t) :
    t.phase = .idle ∧ t.responses = s.responses ∧ t.env.stream = s.env.stream := by
  rcases h.step_idle hp ht with rfl | rfl
  · obtain ⟨-, rs, he⟩ := s.hostTakes_outside
    refine ⟨?_, s.hostTakes_responses, by rw [he]⟩
    rcases s.hostTakes_cases with e | e <;> rw [e] <;> exact hp
  · exact ⟨hp, rfl, rfl⟩

/-- While it runs. -/
theorem EncodeMove.stage {p : List Byte} (hm : EncodeMove t u) (hk : KeepsRest t u) (hrsp : t.rsp = none)
    (hresp : t.responses = s.responses) (hstream : t.env.stream = s.env.stream ++ p)
    (howed : p ++ t.owed = s.encodeImage) : EncodeStage s u := by
  cases hm with
  | sequencer hb howed' _ _ hstream' =>
    exact .running hb ((hk.responses_of_busy hrsp hb).trans hresp) (hstream'.trans hstream) (by rw [howed', howed])
  | finish hp hnil _ hr hstream' =>
    have hall : p = s.encodeImage := by rw [← howed, hnil, List.append_nil]
    exact .endedOk hp (hresp ▸ hk.responses_of_rsp hrsp hr) (by rw [hstream', hstream, hall])
  | wait hb _ howed' _ hstream' =>
    exact .running hb ((hk.responses_of_busy hrsp hb).trans hresp) (hstream'.trans hstream) (by rw [howed', howed])
  | @accept b hb howed' _ _ _ hstream' =>
    exact .running (p := p ++ [b]) hb ((hk.responses_of_busy hrsp hb).trans hresp)
      (by rw [hstream', hstream, List.append_assoc]) (by rw [← howed, howed', List.append_assoc, List.singleton_append])
  | fail hp howed' _ hr hstream' =>
    exact .endedErrSink hp (hresp ▸ hk.responses_of_rsp hrsp hr) (hstream'.trans hstream) ⟨_, howed⟩
      (by simp [← howed, howed'])

/-- Every step keeps to the stages of the ENCODE. -/
theorem EncodeStage.of_step (h : EncodeStage s t) (ht : t.Quiet) (hu : step t = .next u) : EncodeStage s u := by
  cases h with
  | running hb hresp hstream howed =>
    obtain ⟨hk, hm⟩ := State.Encoding.step_cases ⟨ht.inv, hb, ht.rst⟩ hu
    exact hm.stage hk (ht.inv.rsp_of_busy hb) hresp hstream howed
  | endedOk hp hresp hstream =>
    obtain ⟨hp', hresp', hstream'⟩ := ht.frame_of_idle hp hu
    exact .endedOk hp' (hresp'.trans hresp) (hstream'.trans hstream)
  | endedErrSink hp hresp hstream hpre hne =>
    obtain ⟨hp', hresp', hstream'⟩ := ht.frame_of_idle hp hu
    exact .endedErrSink hp' (hresp'.trans hresp) (hstream'.trans hstream) hpre hne

theorem EncodeStage.run {k : Nat} (h : EncodeStage s t) (ht : t.Quiet)
    (hu : Host.Core.run Sys2Proof.core k t = .next u) : t.sameImage u ∧ EncodeStage s u := by
  induction k generalizing t with
  | zero =>
    cases (run_zero t).symm.trans hu
    exact ⟨State.sameImage_refl _, h⟩
  | succ k ih =>
    obtain ⟨v, hv⟩ := exists_step_of_run_succ hu
    obtain ⟨hquiet, himg⟩ := ht.of_step hv
    obtain ⟨himg', hstage⟩ := ih (h.of_step ht hv) hquiet ((run_succ k hv).symm.trans hu)
    exact ⟨himg.trans himg', hstage⟩

/-- After the start nothing is delivered and the whole stream is owed. -/
theorem State.encodeOffered.stage (h : s.encodeOffered) : EncodeStage s s.passCmd.firstStrip :=
  .running (p := []) rfl rfl (List.append_nil _).symm h.owed_eq

end

/-- Settles O55: the stages of an ENCODE, from its start on. -/
theorem encodeOutcomes : Obligations.EncodeOutcomes := by
  unfold Obligations.EncodeOutcomes
  intro s t k h hcmds hrun
  cases k with
  | zero =>
    cases (run_zero s).symm.trans hrun
    obtain ⟨hs, hp, -⟩ := h
    exact ⟨s.sameImage_refl, [], (List.append_nil _).symm, .inl ⟨rfl, .inl rfl, by simp [hs.oq_of_idle hp]⟩⟩
  | succ k =>
    have hquiet : s.passCmd.firstStrip.Quiet := ⟨h.encoding.inv, h.encoding.rst, hcmds⟩
    obtain ⟨himg, hstage⟩ := h.stage.run hquiet ((run_succ k h.step_eq).symm.trans hrun)
    refine ⟨himg, ?_⟩
    cases hstage with
    | @running p hb hresp hstream howed =>
      exact ⟨p, hstream, .inl ⟨hresp, .inr hb, t.toCome, by rw [← howed, State.owed, List.append_assoc]⟩⟩
    | endedOk hp hresp hstream =>
      exact ⟨_, hstream, .inr (.inl ⟨rspWord_ok_zero ▸ hresp, State.busy_eq_false_iff.2 hp, rfl⟩)⟩
    | endedErrSink hp hresp hstream hpre hne =>
      exact ⟨_, hstream, .inr (.inr ⟨rspWord_errSink ▸ hresp, State.busy_eq_false_iff.2 hp, hpre, hne⟩)⟩

end Sys2Proof.Machine

/-! ### The stream of small images, and its size (O29, O33) -/

namespace Sys2Proof.Machine

/-! #### The size of the stream (R118) -/

/-- R118: `'#'`, at most five digits, no more tokens' bytes than columns, and `'$'`. -/
theorem State.length_colorBlock_le (s : State) (k : Nat) (c : Color) :
    (s.colorBlock k c).length ≤ s.width.toNat + 7 := by
  have hdec := length_dec_le_five c.isLt
  have hrle := length_rle_le (s.crbsFrom k c 0)
  rw [State.length_crbsFrom_zero] at hrle
  simp only [State.colorBlock, List.length_cons, List.length_append, List.length_nil]
  omega

theorem State.length_stripBlock_le (s : State) (k : Nat) :
    (s.stripBlock k).length ≤ (s.colors k).length * (s.width.toNat + 7) + 1 := by
  have hblocks : ((s.colors k).map fun c => (s.colorBlock k c).length).sum ≤
      (s.colors k).length * (s.width.toNat + 7) := by
    simpa using List.sum_le_card_nsmul ((s.colors k).map fun c => (s.colorBlock k c).length) (s.width.toNat + 7)
      (by simpa using fun c _ => s.length_colorBlock_le k c)
  simpa [State.stripBlock, List.length_flatMap] using hblocks

theorem State.encodeImage_eq (s : State) : s.encodeImage = (List.range s.strips).flatMap s.stripBlock := by
  rw [State.encodeImage, State.stripsFrom, List.range_eq_range', Nat.sub_zero]

/-- Settles O33: the bound of each strip block, summed over the strips. -/
theorem streamSizeBound : Obligations.StreamSizeBound := by
  unfold Obligations.StreamSizeBound
  intro s
  rw [State.encodeImage_eq, List.length_flatMap]
  exact List.sum_le_sum fun k _ => s.length_stripBlock_le k

/-! #### Corner cases (R100) -/

section
variable {s : State} {c : Color}

theorem State.colors_eq_nil_of_width (hw : s.width = 0) (k : Nat) : s.colors k = [] :=
  discover_eq_nil_iff.2 (State.scan_eq_nil_iff.2 (by simp [hw]))

theorem State.encodeImage_of_height_zero (hh : s.height = 0) : s.encodeImage = [] := by
  simp [State.encodeImage_eq, State.strips, hh]

/-- Without columns a strip block is its `'-'`. -/
theorem State.encodeImage_of_width_zero (hw : s.width = 0) : s.encodeImage = List.replicate s.strips chDash := by
  have hstrip : s.stripBlock = fun _ => [chDash] := by
    funext k
    simp [State.stripBlock, State.colors_eq_nil_of_width hw]
  rw [State.encodeImage_eq, hstrip, ← List.map_eq_flatMap, List.map_const', List.length_range]

/-- A strip of one column and one color. -/
theorem State.colors_of_column (hw : s.width = 1) (hpix : ∀ y < 6, s.pixRead 0 y = c) : s.colors 0 = [c] := by
  have hscan : s.scan 0 = List.replicate 6 c := by
    simp [State.scan, hw, baseY, Config.stripH, List.range_succ, hpix]
  rw [State.colors, hscan]
  simp [discover, discoverStep]

/-- Its color run is the one byte with all six bits. -/
theorem State.crbsFrom_of_column (hw : s.width = 1) (hcol : s.colors 0 = [c]) : s.crbsFrom 0 c 0 = [0x7E] := by
  have hmask : s.mask 0 c 0 = 63 := by
    simpa [hcol] using s.sum_mask_colors (k := 0) (x := 0) (by simp [hw])
  have hcrb : s.crb 0 c 0 = 0x7E := BitVec.eq_of_toNat_eq (by rw [State.toNat_crb, hmask]; rfl)
  simp [State.crbsFrom, hw, hcrb]

theorem State.encodeImage_of_column (hw : s.width = 1) (hh : s.height = 6) (hpix : ∀ y < 6, s.pixRead 0 y = c) :
    s.encodeImage = chHash :: (dec c.toNat ++ [0x7E, chDollar, chDash]) := by
  have hcol := State.colors_of_column hw hpix
  have hone : s.strips = 1 := by simp [State.strips, hh]
  have hrle : rle [126#8] = [126#8] := by decide
  simp [State.encodeImage_eq, hone, State.stripBlock, hcol, State.colorBlock, State.crbsFrom_of_column hw hcol, hrle]

end

/-- Settles O29: no strips; strips without columns; one strip of one column and one color. -/
theorem encodeCornerCases : Obligations.EncodeCornerCases := by
  unfold Obligations.EncodeCornerCases
  exact fun s => ⟨State.encodeImage_of_height_zero, State.encodeImage_of_width_zero,
    fun c => State.encodeImage_of_column⟩

end Sys2Proof.Machine

/-! ### The closed command port, the silent sink and `rst` (O44, O46, O49) -/

namespace Sys2Proof.Machine

section
variable {s : State}

/-- R45: with `rst` low, the block idle and a response waiting, a step is one of the response port. -/
theorem step_of_rsp (hrst : s.rstHigh = false) (hb : s.busy = false) (hr : s.rsp ≠ none) :
    step s = .next s.passRst.hostTakes := by
  rw [step_of_rstLow hrst]
  exact cycle_of_rsp (s := s.passRst) hb hr

theorem State.hostTakes_cmds (s : State) : s.hostTakes.env.cmds = s.env.cmds := by
  obtain ⟨-, rs, he⟩ := s.hostTakes_outside
  rw [he]

/-- R149: a step that offers again the byte on offer, to a sink without answers, leaves the state as it is. -/
theorem step_of_silentSink {b : Byte} {rest : List Byte} (hb : s.busy = true) (hq : s.oq = b :: rest)
    (ho : s.out = some b) (hrst : s.env.rst = []) (ha : s.env.answers = []) : step s = .next s := by
  have hout : s.out ≠ none := by simp [ho]
  have hstay : s.drain b rest = { s with out := some b } := (offerOutcomes s b rest hq).1 ha
  rw [step_of_rst_nil hrst, cycle_of_busy hb, runBusy_of_out hq hout, hstay, ← ho]

/-- A state that is its own next state stays for any number of steps. -/
theorem run_of_step_self (h : step s = .next s) (k : Nat) : Host.Core.run Sys2Proof.core k s = .next s := by
  induction k with
  | zero => exact run_zero s
  | succ k ih => rw [run_succ k h, ih]

end

/-- Settles O44: a busy block leaves the host's side alone; with a response waiting, only the response port moves. -/
theorem commandPortClosed : Obligations.CommandPortClosed := by
  unfold Obligations.CommandPortClosed
  intro s t hclosed hrst h
  cases hb : s.busy with
  | true => exact ((stepMove_of_step h).host_of_busy hb hrst).1
  | false =>
    have hr : s.rsp ≠ none := hclosed.resolve_left (by simp [hb])
    rw [step_of_rsp hrst hb hr] at h
    cases h
    exact s.passRst.hostTakes_cmds

/-- Settles O46: the state is its own next state, so by induction on the number of steps it stays. -/
theorem silentSinkBlocks : Obligations.SilentSinkBlocks := by
  unfold Obligations.SilentSinkBlocks
  intro s b k hb hq ho hrst ha
  obtain ⟨rest, hq⟩ := List.head?_eq_some_iff.1 hq
  exact run_of_step_self (step_of_silentSink hb hq ho hrst ha) k

/-- Settles O49: a step with `rst` high is `State.takeReset`, which puts every element of the block but `pix` to its
value in `BlockState.reset`. -/
theorem resetAtAnyTime : Obligations.ResetAtAnyTime := by
  unfold Obligations.ResetAtAnyTime
  intro s rs hrst
  have hhigh : s.rstHigh = true := by simp [State.rstHigh, hrst]
  refine ⟨_, step_of_rstHigh hhigh, ?_⟩
  simp [hrst]

end Sys2Proof.Machine
